-- ==== Sys2Proof/Word.lean ====
section
/-! DEFINITION. Sys2Proof/Word.lean: the bit widths the CPU works with (00_scope.md R6, R10; 20_memory.md R71). -/

namespace Sys2Proof

/-- A byte, the content of one address (20_memory.md R70, R71). -/
abbrev Byte := BitVec 8

/-- The manual's "word", 16 bits, and the width of an instruction word (20_memory.md R71, 30_encoding.md R131). -/
abbrev Half := BitVec 16

/-- The manual's "dword", 32 bits: a register, an address (20_memory.md R70, R71). -/
abbrev Word := BitVec 32

/-- A 4-bit general register number: R0 to R13, 14 = SP, 15 = PC (10_state.md R20). -/
abbrev RegNo := BitVec 4

/-- The operation sizes `.B`, `.W`, `.D` (00_scope.md R10). -/
inductive Size where
  | byte
  | word
  | dword
deriving DecidableEq, Repr

end Sys2Proof
end

