-- ==== Sys2Proof/Syntax.lean ====
section
/-! DEFINITION. Sys2Proof/Syntax.lean: condition codes, special registers and the instructions, one constructor per
mnemonic of spec/opcode_table.json. An instruction is one 16-bit word; in-line data is read when the word executes
(40_addressing.md R206, R208) and a prefix word is an instruction of its own (00_scope.md R16). -/

namespace Sys2Proof

/-- The sixteen condition codes, in the order of their 4-bit codes (10_state.md R38). -/
inductive Cond where
  | cc | cs | ne | eq | vc | vs | pl | mi | ls | hi | ge | lt | gt | le | a | wf
deriving DecidableEq, Repr

/-- The sixteen special register numbers, in the order P0 to P15 (10_state.md R33). -/
inductive SReg where
  | p0 | vr | p2 | p3 | p4 | ccr | p6 | mof | p8 | ibr | irp | srp | bar | dccr | brp | usp
deriving DecidableEq, Repr

/-- The instruction words. Field names: `d` destination, `s` source, `md` bit 10 of a memory form, `k` an index or a
flag mask, `b` a base, `p` a special register, `i`, `j`, `o`, `c`, `n` immediates (00_scope.md R13). -/
inductive Instr where
  /-- `Bcc_o` (R401). -/
  | bcc (c : Cond) (o : BitVec 8)
  /-- `BDAP_o_Rb` (R211). -/
  | bdapByte (b : RegNo) (o : BitVec 8)
  /-- `ADDQ_j_Rd` (R287). -/
  | addq (d : RegNo) (j : BitVec 6)
  /-- `MOVEQ_i_Rd` (R250). -/
  | moveq (d : RegNo) (i : BitVec 6)
  /-- `SUBQ_j_Rd` (R299). -/
  | subq (d : RegNo) (j : BitVec 6)
  /-- `CMPQ_i_Rd` (R292). -/
  | cmpq (d : RegNo) (i : BitVec 6)
  /-- `ANDQ_i_Rd` (R344). -/
  | andq (d : RegNo) (i : BitVec 6)
  /-- `ORQ_i_Rd` (R347). -/
  | orq (d : RegNo) (i : BitVec 6)
  /-- `BTSTQ_c_Rd` (R356). -/
  | btstq (d : RegNo) (c : BitVec 5)
  /-- `ASRQ_c_Rd` (R350). -/
  | asrq (d : RegNo) (c : BitVec 5)
  /-- `LSLQ_c_Rd` (R352). -/
  | lslq (d : RegNo) (c : BitVec 5)
  /-- `LSRQ_c_Rd` (R354). -/
  | lsrq (d : RegNo) (c : BitVec 5)
  /-- `ADDU.B_Rs_Rd` (R289). -/
  | adduBReg (d : RegNo) (s : RegNo)
  /-- `ADDU.B_____Rd` (R289). -/
  | adduBMem (d : RegNo) (md : Bool) (s : RegNo)
  /-- `ADDU.W_Rs_Rd` (R289). -/
  | adduWReg (d : RegNo) (s : RegNo)
  /-- `ADDU.W_____Rd` (R289). -/
  | adduWMem (d : RegNo) (md : Bool) (s : RegNo)
  /-- `ADDS.B_Rs_Rd` (R288). -/
  | addsBReg (d : RegNo) (s : RegNo)
  /-- `ADDS.B_____Rd` (R288). -/
  | addsBMem (d : RegNo) (md : Bool) (s : RegNo)
  /-- `ADDS.W_Rs_Rd` (R288). -/
  | addsWReg (d : RegNo) (s : RegNo)
  /-- `ADDS.W_____Rd` (R288). -/
  | addsWMem (d : RegNo) (md : Bool) (s : RegNo)
  /-- `MOVU.B_Rs_Rd` (R252). -/
  | movuBReg (d : RegNo) (s : RegNo)
  /-- `MOVU.B_____Rd` (R252). -/
  | movuBMem (d : RegNo) (md : Bool) (s : RegNo)
  /-- `MOVU.W_Rs_Rd` (R252). -/
  | movuWReg (d : RegNo) (s : RegNo)
  /-- `MOVU.W_____Rd` (R252). -/
  | movuWMem (d : RegNo) (md : Bool) (s : RegNo)
  /-- `MOVS.B_Rs_Rd` (R251). -/
  | movsBReg (d : RegNo) (s : RegNo)
  /-- `MOVS.B_____Rd` (R251). -/
  | movsBMem (d : RegNo) (md : Bool) (s : RegNo)
  /-- `MOVS.W_Rs_Rd` (R251). -/
  | movsWReg (d : RegNo) (s : RegNo)
  /-- `MOVS.W_____Rd` (R251). -/
  | movsWMem (d : RegNo) (md : Bool) (s : RegNo)
  /-- `SUBU.B_Rs_Rd` (R301). -/
  | subuBReg (d : RegNo) (s : RegNo)
  /-- `SUBU.B_____Rd` (R301). -/
  | subuBMem (d : RegNo) (md : Bool) (s : RegNo)
  /-- `SUBU.W_Rs_Rd` (R301). -/
  | subuWReg (d : RegNo) (s : RegNo)
  /-- `SUBU.W_____Rd` (R301). -/
  | subuWMem (d : RegNo) (md : Bool) (s : RegNo)
  /-- `SUBS.B_Rs_Rd` (R300). -/
  | subsBReg (d : RegNo) (s : RegNo)
  /-- `SUBS.B_____Rd` (R300). -/
  | subsBMem (d : RegNo) (md : Bool) (s : RegNo)
  /-- `SUBS.W_Rs_Rd` (R300). -/
  | subsWReg (d : RegNo) (s : RegNo)
  /-- `SUBS.W_____Rd` (R300). -/
  | subsWMem (d : RegNo) (md : Bool) (s : RegNo)
  /-- `CMPU.B_____Rd` (R294). -/
  | cmpuBMem (d : RegNo) (md : Bool) (s : RegNo)
  /-- `CMPU.W_____Rd` (R294). -/
  | cmpuWMem (d : RegNo) (md : Bool) (s : RegNo)
  /-- `CMPS.B_____Rd` (R293). -/
  | cmpsBMem (d : RegNo) (md : Bool) (s : RegNo)
  /-- `CMPS.W_____Rd` (R293). -/
  | cmpsWMem (d : RegNo) (md : Bool) (s : RegNo)
  /-- `LSL.B_Rs_Rd` (R351). -/
  | lslBReg (d : RegNo) (s : RegNo)
  /-- `LSL.W_Rs_Rd` (R351). -/
  | lslWReg (d : RegNo) (s : RegNo)
  /-- `LSL.D_Rs_Rd` (R351). -/
  | lslDReg (d : RegNo) (s : RegNo)
  /-- `NEG.B_Rs_Rd` (R297). -/
  | negBReg (d : RegNo) (s : RegNo)
  /-- `NEG.W_Rs_Rd` (R297). -/
  | negWReg (d : RegNo) (s : RegNo)
  /-- `NEG.D_Rs_Rd` (R297). -/
  | negDReg (d : RegNo) (s : RegNo)
  /-- `ASR.B_Rs_Rd` (R349). -/
  | asrBReg (d : RegNo) (s : RegNo)
  /-- `ASR.W_Rs_Rd` (R349). -/
  | asrWReg (d : RegNo) (s : RegNo)
  /-- `ASR.D_Rs_Rd` (R349). -/
  | asrDReg (d : RegNo) (s : RegNo)
  /-- `LSR.B_Rs_Rd` (R353). -/
  | lsrBReg (d : RegNo) (s : RegNo)
  /-- `LSR.W_Rs_Rd` (R353). -/
  | lsrWReg (d : RegNo) (s : RegNo)
  /-- `LSR.D_Rs_Rd` (R353). -/
  | lsrDReg (d : RegNo) (s : RegNo)
  /-- `BOUND.B_Rs_Rd` (R290). -/
  | boundBReg (d : RegNo) (s : RegNo)
  /-- `BOUND.B_____Rd` (R290). -/
  | boundBMem (d : RegNo) (md : Bool) (s : RegNo)
  /-- `BOUND.W_Rs_Rd` (R290). -/
  | boundWReg (d : RegNo) (s : RegNo)
  /-- `BOUND.W_____Rd` (R290). -/
  | boundWMem (d : RegNo) (md : Bool) (s : RegNo)
  /-- `BOUND.D_Rs_Rd` (R290). -/
  | boundDReg (d : RegNo) (s : RegNo)
  /-- `BOUND.D_____Rd` (R290). -/
  | boundDMem (d : RegNo) (md : Bool) (s : RegNo)
  /-- `ADD.B_Rs_Rd` (R285). -/
  | addBReg (d : RegNo) (s : RegNo)
  /-- `ADD.B_____Rd` (R285). -/
  | addBMem (d : RegNo) (md : Bool) (s : RegNo)
  /-- `ADD.W_Rs_Rd` (R285). -/
  | addWReg (d : RegNo) (s : RegNo)
  /-- `ADD.W_____Rd` (R285). -/
  | addWMem (d : RegNo) (md : Bool) (s : RegNo)
  /-- `ADD.D_Rs_Rd` (R285). -/
  | addDReg (d : RegNo) (s : RegNo)
  /-- `ADD.D_____Rd` (R285). -/
  | addDMem (d : RegNo) (md : Bool) (s : RegNo)
  /-- `MOVE.B_Rs_Rd` (R244). -/
  | moveBReg (d : RegNo) (s : RegNo)
  /-- `MOVE.B_____Rd` (R244). -/
  | moveBMem (d : RegNo) (md : Bool) (s : RegNo)
  /-- `MOVE.W_Rs_Rd` (R244). -/
  | moveWReg (d : RegNo) (s : RegNo)
  /-- `MOVE.W_____Rd` (R244). -/
  | moveWMem (d : RegNo) (md : Bool) (s : RegNo)
  /-- `MOVE.D_Rs_Rd` (R244). -/
  | moveDReg (d : RegNo) (s : RegNo)
  /-- `MOVE.D_____Rd` (R244). -/
  | moveDMem (d : RegNo) (md : Bool) (s : RegNo)
  /-- `SUB.B_Rs_Rd` (R298). -/
  | subBReg (d : RegNo) (s : RegNo)
  /-- `SUB.B_____Rd` (R298). -/
  | subBMem (d : RegNo) (md : Bool) (s : RegNo)
  /-- `SUB.W_Rs_Rd` (R298). -/
  | subWReg (d : RegNo) (s : RegNo)
  /-- `SUB.W_____Rd` (R298). -/
  | subWMem (d : RegNo) (md : Bool) (s : RegNo)
  /-- `SUB.D_Rs_Rd` (R298). -/
  | subDReg (d : RegNo) (s : RegNo)
  /-- `SUB.D_____Rd` (R298). -/
  | subDMem (d : RegNo) (md : Bool) (s : RegNo)
  /-- `CMP.B_Rs_Rd` (R291). -/
  | cmpBReg (d : RegNo) (s : RegNo)
  /-- `CMP.B_____Rd` (R291). -/
  | cmpBMem (d : RegNo) (md : Bool) (s : RegNo)
  /-- `CMP.W_Rs_Rd` (R291). -/
  | cmpWReg (d : RegNo) (s : RegNo)
  /-- `CMP.W_____Rd` (R291). -/
  | cmpWMem (d : RegNo) (md : Bool) (s : RegNo)
  /-- `CMP.D_Rs_Rd` (R291). -/
  | cmpDReg (d : RegNo) (s : RegNo)
  /-- `CMP.D_____Rd` (R291). -/
  | cmpDMem (d : RegNo) (md : Bool) (s : RegNo)
  /-- `AND.B_Rs_Rd` (R343). -/
  | andBReg (d : RegNo) (s : RegNo)
  /-- `AND.B_____Rd` (R343). -/
  | andBMem (d : RegNo) (md : Bool) (s : RegNo)
  /-- `AND.W_Rs_Rd` (R343). -/
  | andWReg (d : RegNo) (s : RegNo)
  /-- `AND.W_____Rd` (R343). -/
  | andWMem (d : RegNo) (md : Bool) (s : RegNo)
  /-- `AND.D_Rs_Rd` (R343). -/
  | andDReg (d : RegNo) (s : RegNo)
  /-- `AND.D_____Rd` (R343). -/
  | andDMem (d : RegNo) (md : Bool) (s : RegNo)
  /-- `OR.B_Rs_Rd` (R346). -/
  | orBReg (d : RegNo) (s : RegNo)
  /-- `OR.B_____Rd` (R346). -/
  | orBMem (d : RegNo) (md : Bool) (s : RegNo)
  /-- `OR.W_Rs_Rd` (R346). -/
  | orWReg (d : RegNo) (s : RegNo)
  /-- `OR.W_____Rd` (R346). -/
  | orWMem (d : RegNo) (md : Bool) (s : RegNo)
  /-- `OR.D_Rs_Rd` (R346). -/
  | orDReg (d : RegNo) (s : RegNo)
  /-- `OR.D_____Rd` (R346). -/
  | orDMem (d : RegNo) (md : Bool) (s : RegNo)
  /-- `ADDI_Rs.B_Rd` (R286). -/
  | addiB (k : RegNo) (d : RegNo)
  /-- `ADDI_Rs.W_Rd` (R286). -/
  | addiW (k : RegNo) (d : RegNo)
  /-- `ADDI_Rs.D_Rd` (R286). -/
  | addiD (k : RegNo) (d : RegNo)
  /-- `BIAP_Rs.B_Rb` (R210). -/
  | biapB (k : RegNo) (b : RegNo)
  /-- `BIAP_Rs.W_Rb` (R210). -/
  | biapW (k : RegNo) (b : RegNo)
  /-- `BIAP_Rs.D_Rb` (R210). -/
  | biapD (k : RegNo) (b : RegNo)
  /-- `NOP` (R386). -/
  | nop
  /-- `BTST_Rs_Rd` (R355). -/
  | btst (d : RegNo) (s : RegNo)
  /-- `Scc_Rd` (R261). -/
  | scc (c : Cond) (d : RegNo)
  /-- `SETF_list` (R381). -/
  | setf (k : BitVec 8)
  /-- `CLEARF_list` (R382). -/
  | clearf (k : BitVec 8)
  /-- `MOVE_Rs_Pd` (R246). -/
  | moveToSpecial (p : SReg) (s : RegNo)
  /-- `MOVE_Ps_Rd` (R248). -/
  | moveFromSpecial (p : SReg) (d : RegNo)
  /-- `ABS_Rs_Rd` (R284). -/
  | abs (d : RegNo) (s : RegNo)
  /-- `DSTEP_Rs_Rd` (R295). -/
  | dstep (d : RegNo) (s : RegNo)
  /-- `LZ_Rs_Rd` (R357). -/
  | lz (d : RegNo) (s : RegNo)
  /-- `SWAP_opt__Rd` (R260). -/
  | swap (o : BitVec 4) (d : RegNo)
  /-- `XOR_Rs_Rd` (R348). -/
  | xor (d : RegNo) (s : RegNo)
  /-- `MSTEP_Rs_Rd` (R296). -/
  | mstep (d : RegNo) (s : RegNo)
  /-- `MULS.B_Rs_Rd` (R313). -/
  | mulsB (d : RegNo) (s : RegNo)
  /-- `MULS.W_Rs_Rd` (R313). -/
  | mulsW (d : RegNo) (s : RegNo)
  /-- `MULS.D_Rs_Rd` (R313). -/
  | mulsD (d : RegNo) (s : RegNo)
  /-- `MULU.B_Rs_Rd` (R314). -/
  | muluB (d : RegNo) (s : RegNo)
  /-- `MULU.W_Rs_Rd` (R314). -/
  | muluW (d : RegNo) (s : RegNo)
  /-- `MULU.D_Rs_Rd` (R314). -/
  | muluD (d : RegNo) (s : RegNo)
  /-- `BDAP____.B_Rb` (R212). -/
  | bdapB (b : RegNo) (md : Bool) (s : RegNo)
  /-- `BDAP____.W_Rb` (R212). -/
  | bdapW (b : RegNo) (md : Bool) (s : RegNo)
  /-- `BDAP____.D_Rb` (R212). -/
  | bdapD (b : RegNo) (md : Bool) (s : RegNo)
  /-- `TEST.B` (R302). -/
  | testBMem (md : Bool) (s : RegNo)
  /-- `TEST.W` (R302). -/
  | testWMem (md : Bool) (s : RegNo)
  /-- `TEST.D` (R302). -/
  | testDMem (md : Bool) (s : RegNo)
  /-- `MOVE.B_Rs` (R245). -/
  | moveBStore (s : RegNo) (md : Bool) (d : RegNo)
  /-- `MOVE.W_Rs` (R245). -/
  | moveWStore (s : RegNo) (md : Bool) (d : RegNo)
  /-- `MOVE.D_Rs` (R245). -/
  | moveDStore (s : RegNo) (md : Bool) (d : RegNo)
  /-- `JUMP` (R407). -/
  | jump (md : Bool) (s : RegNo)
  /-- `JUMP_Rs` (R407). -/
  | jumpReg (s : RegNo)
  /-- `JIRC` (R412). -/
  | jirc (md : Bool) (s : RegNo)
  /-- `JIRC_Rs` (R412). -/
  | jircReg (s : RegNo)
  /-- `JSRC` (R411). -/
  | jsrc (md : Bool) (s : RegNo)
  /-- `JSRC_Rs` (R411). -/
  | jsrcReg (s : RegNo)
  /-- `JBRC` (R412). -/
  | jbrc (md : Bool) (s : RegNo)
  /-- `JBRC_Rs` (R412). -/
  | jbrcReg (s : RegNo)
  /-- `JMPU` (R408). -/
  | jmpu (md : Bool) (s : RegNo)
  /-- `JIR` (R410). -/
  | jir (md : Bool) (s : RegNo)
  /-- `JIR_Rs` (R410). -/
  | jirReg (s : RegNo)
  /-- `JSR` (R409). -/
  | jsr (md : Bool) (s : RegNo)
  /-- `JSR_Rs` (R409). -/
  | jsrReg (s : RegNo)
  /-- `BREAK_n` (R415). -/
  | breakN (n : BitVec 4)
  /-- `DIP` (R213). -/
  | dip (md : Bool) (s : RegNo)
  /-- `Bcc_xx` (R402). -/
  | bcc16 (c : Cond)
  /-- `MOVE_____Pd` (R246). -/
  | moveToSpecialMem (p : SReg) (md : Bool) (s : RegNo)
  /-- `MOVE_Ps` (R248). -/
  | moveFromSpecialMem (p : SReg) (md : Bool) (d : RegNo)
  /-- `RBF` (R431). -/
  | rbf (md : Bool) (s : RegNo)
  /-- `SBFS` (R430). -/
  | sbfs (md : Bool) (d : RegNo)
  /-- `MOVEM_____Rd` (R254). -/
  | movemLoad (d : RegNo) (md : Bool) (s : RegNo)
  /-- `MOVEM_Rs` (R255). -/
  | movemStore (s : RegNo) (md : Bool) (d : RegNo)
  /-- `CLEAR.B_Rd` (R240). -/
  | clearBReg (d : RegNo)
  /-- `CLEAR.B` (R240). -/
  | clearBMem (md : Bool) (d : RegNo)
  /-- `CLEAR.W_Rd` (R240). -/
  | clearWReg (d : RegNo)
  /-- `CLEAR.W` (R240). -/
  | clearWMem (md : Bool) (d : RegNo)
  /-- `CLEAR.D_Rd` (R240). -/
  | clearDReg (d : RegNo)
  /-- `CLEAR.D` (R240). -/
  | clearDMem (md : Bool) (d : RegNo)
  /-- `RET` (R422). -/
  | ret
  /-- `RETB` (R423). -/
  | retb
  /-- `RETI` (R424). -/
  | reti
  /-- `NOT_Rd` (R345). -/
  | notReg (d : RegNo)
  /-- `AX` (R383). -/
  | ax
  /-- `EI` (R384). -/
  | ei
  /-- `DI` (R385). -/
  | di
  /-- `POP_Rd` (R256). -/
  | popReg (d : RegNo)
  /-- `POP_Pd` (R257). -/
  | popSpecial (p : SReg)
  /-- `PUSH_Rs` (R258). -/
  | pushReg (s : RegNo)
  /-- `PUSH_Ps` (R259). -/
  | pushSpecial (p : SReg)
  /-- `TEST.B_Rs` (R302). -/
  | testBReg (s : RegNo)
  /-- `TEST.W_Rs` (R302). -/
  | testWReg (s : RegNo)
  /-- `TEST.D_Rs` (R302). -/
  | testDReg (s : RegNo)
  /-- `(reserved)` (R153). -/
  | reserved (w : Half)
  /-- `reserved__by_exclusion` (R153). -/
  | unlisted (w : Half)
  /-- `how_to_use_this_table` (R131). -/
  | tableNote
deriving DecidableEq, Repr

end Sys2Proof
end

