-- ==== Sys2Proof/WellFormed.lean ====
section
/-! DEFINITION. Sys2Proof/WellFormed.lean: which terms of `Instr` stand for a word. A term is ill formed when its word
has a more specific row of the opcode table (a macro, NOP), or when a reserved or unlisted constructor holds a word
that is neither (30_encoding.md R139, R153, R160). -/

namespace Sys2Proof

/-- The words that the tables mark "(Reserved)", and the register-jump opcode with mode 11, which the opcode table
files under the same row (30_encoding.md R153). -/
def isReserved (w : Half) : Bool :=
  w &&& 0x0FF0#16 == 0x0570#16 || w &&& 0x0BF0#16 == 0x0980#16 || w &&& 0x0BF0#16 == 0x0990#16 ||
  w &&& 0x0BF0#16 == 0x09A0#16 || w &&& 0x0BF0#16 == 0x0AB0#16 || w &&& 0x0BF0#16 == 0x0AF0#16 ||
  w &&& 0x0FF0#16 == 0x0DB0#16

/-- Operand2 values that name no member of the jump family (30_encoding.md R146). -/
def notJumpMember (w : Half) : Bool :=
  match (w.extractLsb' 12 4).toNat with
  | 1 | 4 | 5 | 7 | 9 | 12 | 13 | 15 => true
  | _ => false

/-- The unlisted words of 30_encoding.md R153, row by row: jump family with a memory operand, `1110 11 0100 11`, jump
family with a register operand, DIP, 16-bit Bcc, RBF and SBFS, TEST. -/
def isUnlisted (w : Half) : Bool :=
  (w &&& 0x0BF0#16 == 0x0930#16 && notJumpMember w) || w &&& 0xFFF0#16 == 0xED30#16 ||
  (w &&& 0x0FF0#16 == 0x09B0#16 &&
    (notJumpMember w || w &&& 0xF000#16 == 0x8000#16 || w &&& 0xF000#16 == 0xE000#16)) ||
  (w &&& 0x0BF0#16 == 0x0970#16 && w &&& 0xF000#16 != 0) ||
  (w &&& 0x0BF0#16 == 0x09F0#16 && w &&& 0x0FFF#16 != 0x0DFF#16) ||
  (w &&& 0x0BF0#16 == 0x0B30#16 && w &&& 0xF000#16 != 0x3000#16) ||
  (w &&& 0x0BF0#16 == 0x0B70#16 && w &&& 0xF000#16 != 0x3000#16) ||
  ((w &&& 0x0BF0#16 == 0x0B80#16 || w &&& 0x0BF0#16 == 0x0B90#16 || w &&& 0x0BF0#16 == 0x0BA0#16) &&
    w &&& 0xF000#16 != 0)

/-- The checks on a term. Where a constructor has no condition every value of its fields is a word of its own. -/
def WellFormed : Instr → Bool
  | .bcc _ _ => true
  | .bdapByte _ _ => true
  | .addq _ _ => true
  | .moveq _ _ => true
  | .subq _ _ => true
  | .cmpq _ _ => true
  | .andq _ _ => true
  | .orq _ _ => true
  | .btstq _ _ => true
  | .asrq _ _ => true
  | .lslq _ _ => true
  | .lsrq _ _ => true
  | .adduBReg _ _ => true
  | .adduBMem _ _ _ => true
  | .adduWReg _ _ => true
  | .adduWMem _ _ _ => true
  | .addsBReg _ _ => true
  | .addsBMem _ _ _ => true
  | .addsWReg _ _ => true
  | .addsWMem _ _ _ => true
  | .movuBReg _ _ => true
  | .movuBMem _ _ _ => true
  | .movuWReg _ _ => true
  | .movuWMem _ _ _ => true
  | .movsBReg _ _ => true
  | .movsBMem _ _ _ => true
  | .movsWReg _ _ => true
  | .movsWMem _ _ _ => true
  | .subuBReg _ _ => true
  | .subuBMem _ _ _ => true
  | .subuWReg _ _ => true
  | .subuWMem _ _ _ => true
  | .subsBReg _ _ => true
  | .subsBMem _ _ _ => true
  | .subsWReg _ _ => true
  | .subsWMem _ _ _ => true
  | .cmpuBMem _ _ _ => true
  | .cmpuWMem _ _ _ => true
  | .cmpsBMem _ _ _ => true
  | .cmpsWMem _ _ _ => true
  | .lslBReg _ _ => true
  | .lslWReg _ _ => true
  | .lslDReg _ _ => true
  | .negBReg _ _ => true
  | .negWReg _ _ => true
  | .negDReg _ _ => true
  | .asrBReg _ _ => true
  | .asrWReg _ _ => true
  | .asrDReg _ _ => true
  | .lsrBReg _ _ => true
  | .lsrWReg _ _ => true
  | .lsrDReg _ _ => true
  | .boundBReg _ _ => true
  | .boundBMem _ _ _ => true
  | .boundWReg _ _ => true
  | .boundWMem _ _ _ => true
  | .boundDReg _ _ => true
  | .boundDMem _ _ _ => true
  | .addBReg _ _ => true
  | .addBMem _ _ _ => true
  | .addWReg _ _ => true
  | .addWMem _ _ _ => true
  | .addDReg _ _ => true
  | .addDMem _ _ _ => true
  | .moveBReg d s => d != s
  | .moveBMem _ _ _ => true
  | .moveWReg d s => d != s
  | .moveWMem _ _ _ => true
  | .moveDReg d s => d != s
  | .moveDMem _ md s => !(md && s == 14#4)
  | .subBReg _ _ => true
  | .subBMem _ _ _ => true
  | .subWReg _ _ => true
  | .subWMem _ _ _ => true
  | .subDReg _ _ => true
  | .subDMem _ _ _ => true
  | .cmpBReg _ _ => true
  | .cmpBMem _ _ _ => true
  | .cmpWReg _ _ => true
  | .cmpWMem _ _ _ => true
  | .cmpDReg _ _ => true
  | .cmpDMem _ _ _ => true
  | .andBReg _ _ => true
  | .andBMem _ _ _ => true
  | .andWReg _ _ => true
  | .andWMem _ _ _ => true
  | .andDReg _ _ => true
  | .andDMem _ _ _ => true
  | .orBReg _ _ => true
  | .orBMem _ _ _ => true
  | .orWReg _ _ => true
  | .orWMem _ _ _ => true
  | .orDReg _ _ => true
  | .orDMem _ _ _ => true
  | .addiB k d => !(k == 0#4 && d == 15#4)
  | .addiW _ _ => true
  | .addiD _ _ => true
  | .biapB _ _ => true
  | .biapW _ _ => true
  | .biapD _ _ => true
  | .nop => true
  | .btst _ _ => true
  | .scc _ _ => true
  | .setf k => k != 0x10#8 && k != 0x20#8
  | .clearf k => k != 0x20#8
  | .moveToSpecial _ _ => true
  | .moveFromSpecial p d => !(p == .p0 || p == .p4 || p == .p8) && !(d == 15#4 && (p == .srp || p == .brp || p == .irp))
  | .abs _ _ => true
  | .dstep _ _ => true
  | .lz _ _ => true
  | .swap o _ => o != 8#4
  | .xor _ _ => true
  | .mstep _ _ => true
  | .mulsB _ _ => true
  | .mulsW _ _ => true
  | .mulsD _ _ => true
  | .muluB _ _ => true
  | .muluW _ _ => true
  | .muluD _ _ => true
  | .bdapB _ _ _ => true
  | .bdapW _ _ _ => true
  | .bdapD _ _ _ => true
  | .testBMem _ _ => true
  | .testWMem _ _ => true
  | .testDMem _ _ => true
  | .moveBStore _ _ _ => true
  | .moveWStore _ _ _ => true
  | .moveDStore _ md d => !(md && d == 14#4)
  | .jump _ _ => true
  | .jumpReg _ => true
  | .jirc _ _ => true
  | .jircReg _ => true
  | .jsrc _ _ => true
  | .jsrcReg _ => true
  | .jbrc _ _ => true
  | .jbrcReg _ => true
  | .jmpu _ _ => true
  | .jir _ _ => true
  | .jirReg _ => true
  | .jsr _ _ => true
  | .jsrReg _ => true
  | .breakN _ => true
  | .dip _ _ => true
  | .bcc16 _ => true
  | .moveToSpecialMem _ md s => !(md && s == 14#4)
  | .moveFromSpecialMem p md d => !(p == .p0 || p == .p4 || p == .p8) && !(md && d == 14#4)
  | .rbf _ _ => true
  | .sbfs _ _ => true
  | .movemLoad _ _ _ => true
  | .movemStore _ _ _ => true
  | .clearBReg _ => true
  | .clearBMem md d => !(md && d == 14#4)
  | .clearWReg _ => true
  | .clearWMem md d => !(md && d == 14#4)
  | .clearDReg _ => true
  | .clearDMem md d => !(md && d == 14#4)
  | .ret => true
  | .retb => true
  | .reti => true
  | .notReg _ => true
  | .ax => true
  | .ei => true
  | .di => true
  | .popReg _ => true
  | .popSpecial _ => true
  | .pushReg _ => true
  | .pushSpecial _ => true
  | .testBReg _ => true
  | .testWReg _ => true
  | .testDReg _ => true
  | .reserved w => isReserved w
  | .unlisted w => isUnlisted w
  | .tableNote => false

end Sys2Proof
end

