-- ==== Sys2Proof/Decode.lean ====
section
/-! DEFINITION. Sys2Proof/Decode.lean: from a 16-bit word to an instruction (30_encoding.md R139 to R153), from bytes to
an instruction, and back (`encode`). -/

namespace Sys2Proof

/-- The 4-bit condition code (10_state.md R38). -/
def Cond.code : Cond → BitVec 4
  | .cc => 0#4 | .cs => 1#4 | .ne => 2#4 | .eq => 3#4 | .vc => 4#4 | .vs => 5#4 | .pl => 6#4 | .mi => 7#4
  | .ls => 8#4 | .hi => 9#4 | .ge => 10#4 | .lt => 11#4 | .gt => 12#4 | .le => 13#4 | .a => 14#4 | .wf => 15#4

/-- The condition of a 4-bit code (10_state.md R38). -/
def Cond.ofCode (c : BitVec 4) : Cond :=
  match c.toNat with
  | 0 => .cc | 1 => .cs | 2 => .ne | 3 => .eq | 4 => .vc | 5 => .vs | 6 => .pl | 7 => .mi
  | 8 => .ls | 9 => .hi | 10 => .ge | 11 => .lt | 12 => .gt | 13 => .le | 14 => .a | _ => .wf

/-- The 4-bit special register number (10_state.md R33). -/
def SReg.code : SReg → BitVec 4
  | .p0 => 0#4 | .vr => 1#4 | .p2 => 2#4 | .p3 => 3#4 | .p4 => 4#4 | .ccr => 5#4 | .p6 => 6#4 | .mof => 7#4
  | .p8 => 8#4 | .ibr => 9#4 | .irp => 10#4 | .srp => 11#4 | .bar => 12#4 | .dccr => 13#4 | .brp => 14#4 | .usp => 15#4

/-- The special register of a 4-bit number (10_state.md R33). -/
def SReg.ofCode (c : BitVec 4) : SReg :=
  match c.toNat with
  | 0 => .p0 | 1 => .vr | 2 => .p2 | 3 => .p3 | 4 => .p4 | 5 => .ccr | 6 => .p6 | 7 => .mof
  | 8 => .p8 | 9 => .ibr | 10 => .irp | 11 => .srp | 12 => .bar | 13 => .dccr | 14 => .brp | _ => .usp

/-! ## Fields of an instruction word (30_encoding.md R131) -/

/-- Operand2, bits 15:12. -/
def fieldOp2 (w : Half) : BitVec 4 := w.extractLsb' 12 4
/-- Mode, bits 11:10. -/
def fieldMode (w : Half) : BitVec 2 := w.extractLsb' 10 2
/-- Opcode, bits 9:6. -/
def fieldOpcode (w : Half) : BitVec 4 := w.extractLsb' 6 4
/-- Size, bits 5:4. -/
def fieldSize (w : Half) : BitVec 2 := w.extractLsb' 4 2
/-- Operand1, bits 3:0. -/
def fieldOp1 (w : Half) : BitVec 4 := w.extractLsb' 0 4
/-- Bit 10, `md` of a memory form (30_encoding.md R132, R137). -/
def fieldMd (w : Half) : Bool := w.getLsbD 10
/-- The 6-bit quick immediate, bits 5:0 (30_encoding.md R134). -/
def fieldQuick (w : Half) : BitVec 6 := w.extractLsb' 0 6
/-- The 5-bit quick count, bits 4:0 (30_encoding.md R134). -/
def fieldCount (w : Half) : BitVec 5 := w.extractLsb' 0 5
/-- The 8-bit field of Bcc and of the byte-offset BDAP, bits 7:0 (30_encoding.md R134). -/
def fieldByte (w : Half) : BitVec 8 := w.extractLsb' 0 8
/-- The flag mask of SETF and CLEARF, bits 15:12 then bits 3:0 (30_encoding.md R166). -/
def fieldMask (w : Half) : BitVec 8 := w.extractLsb' 12 4 ++ w.extractLsb' 0 4

/-- A choice by the Size field: codes 00, 01, 10, 11 (30_encoding.md R133). -/
def pickSize {α : Type} (z : BitVec 2) (b w d fixed : α) : α :=
  match z.toNat with
  | 0 => b
  | 1 => w
  | 2 => d
  | _ => fixed

/-! ## Decoding a word -/

/-- Mode 00 (30_encoding.md R141). -/
def decodeQuick (w : Half) : Instr :=
  let d := fieldOp2 w
  let c := fieldCount w
  match (fieldOpcode w).toNat with
  | 0 | 1 | 2 | 3 => .bcc (Cond.ofCode d) (fieldByte w)
  | 4 | 5 | 6 | 7 => .bdapByte d (fieldByte w)
  | 8 => .addq d (fieldQuick w)
  | 9 => .moveq d (fieldQuick w)
  | 10 => .subq d (fieldQuick w)
  | 11 => .cmpq d (fieldQuick w)
  | 12 => .andq d (fieldQuick w)
  | 13 => .orq d (fieldQuick w)
  | 14 => if w.getLsbD 5 then .asrq d c else .btstq d c
  | _ => if w.getLsbD 5 then .lsrq d c else .lslq d c

/-- MOVE.m Rs,Rd, which is TEST.m Rs when both registers are the same (30_encoding.md R160). -/
def decodeMoveReg (z : BitVec 2) (d s : RegNo) : Instr :=
  if d = s then pickSize z (.testBReg s) (.testWReg s) (.testDReg s) (.testDReg s)
  else pickSize z (.moveBReg d s) (.moveWReg d s) (.moveDReg d s) (.moveDReg d s)

/-- MOVE Ps,Rd with its spellings CLEAR.m Rd, RET, RETB, RETI (30_encoding.md R161, R162). -/
def decodeFromSpecial (p : SReg) (d : RegNo) : Instr :=
  match p with
  | .p0 => .clearBReg d
  | .p4 => .clearWReg d
  | .p8 => .clearDReg d
  | .srp => if d = 15#4 then .ret else .moveFromSpecial .srp d
  | .brp => if d = 15#4 then .retb else .moveFromSpecial .brp d
  | .irp => if d = 15#4 then .reti else .moveFromSpecial .irp d
  | p => .moveFromSpecial p d

/-- SETF with its spellings AX and EI (44_flags_nop.md R383, R384). -/
def decodeSetf (k : BitVec 8) : Instr :=
  if k = 0x10#8 then .ax else if k = 0x20#8 then .ei else .setf k

/-- Mode 01 (30_encoding.md R142, R143). -/
def decodeReg (w : Half) : Instr :=
  let d := fieldOp2 w
  let s := fieldOp1 w
  let z := fieldSize w
  match (fieldOpcode w).toNat with
  | 0 => pickSize z (.adduBReg d s) (.adduWReg d s) (.addsBReg d s) (.addsWReg d s)
  | 1 => pickSize z (.movuBReg d s) (.movuWReg d s) (.movsBReg d s) (.movsWReg d s)
  | 2 => pickSize z (.subuBReg d s) (.subuWReg d s) (.subsBReg d s) (.subsWReg d s)
  | 3 => pickSize z (.lslBReg d s) (.lslWReg d s) (.lslDReg d s) (.btst d s)
  | 4 => pickSize z (if d = 0#4 ∧ s = 15#4 then .nop else .addiB d s) (.addiW d s) (.addiD d s)
           (.scc (Cond.ofCode d) s)
  | 5 => pickSize z (.biapB d s) (.biapW d s) (.biapD d s) (.reserved w)
  | 6 => pickSize z (.negBReg d s) (.negWReg d s) (.negDReg d s) (decodeSetf (fieldMask w))
  | 7 => pickSize z (.boundBReg d s) (.boundWReg d s) (.boundDReg d s)
           (if fieldMask w = 0x20#8 then .di else .clearf (fieldMask w))
  | 8 => pickSize z (.addBReg d s) (.addWReg d s) (.addDReg d s) (.moveToSpecial (SReg.ofCode d) s)
  | 9 => pickSize z (decodeMoveReg z d s) (decodeMoveReg z d s) (decodeMoveReg z d s)
           (decodeFromSpecial (SReg.ofCode d) s)
  | 10 => pickSize z (.subBReg d s) (.subWReg d s) (.subDReg d s) (.abs d s)
  | 11 => pickSize z (.cmpBReg d s) (.cmpWReg d s) (.cmpDReg d s) (.dstep d s)
  | 12 => pickSize z (.andBReg d s) (.andWReg d s) (.andDReg d s) (.lz d s)
  | 13 => pickSize z (.orBReg d s) (.orWReg d s) (.orDReg d s) (if d = 8#4 then .notReg s else .swap d s)
  | 14 => pickSize z (.asrBReg d s) (.asrWReg d s) (.asrDReg d s) (.xor d s)
  | _ => pickSize z (.lsrBReg d s) (.lsrWReg d s) (.lsrDReg d s) (.mstep d s)

/-- The jump family with a memory operand, BREAK among it (30_encoding.md R146, R165). -/
def decodeJumpMem (w : Half) : Instr :=
  let md := fieldMd w
  let s := fieldOp1 w
  match (fieldOp2 w).toNat with
  | 0 => .jump md s
  | 2 => .jirc md s
  | 3 => .jsrc md s
  | 6 => .jbrc md s
  | 8 => .jmpu md s
  | 10 => .jir md s
  | 11 => .jsr md s
  | 14 => if md then .unlisted w else .breakN s
  | _ => .unlisted w

/-- The jump family with a register operand (30_encoding.md R146); mode 11 is not listed (R145). -/
def decodeJumpReg (w : Half) : Instr :=
  let s := fieldOp1 w
  if fieldMd w then .reserved w
  else match (fieldOp2 w).toNat with
  | 0 => .jumpReg s
  | 2 => .jircReg s
  | 3 => .jsrcReg s
  | 6 => .jbrcReg s
  | 10 => .jirReg s
  | 11 => .jsrReg s
  | _ => .unlisted w

/-- MOVE Ps,[ ] with its spellings PUSH Ps (its second word) and CLEAR.m [ ] (30_encoding.md R161, R164). -/
def decodeFromSpecialMem (p : SReg) (md : Bool) (d : RegNo) : Instr :=
  if md ∧ d = 14#4 then .pushSpecial p
  else match p with
  | .p0 => .clearBMem md d
  | .p4 => .clearWMem md d
  | .p8 => .clearDMem md d
  | p => .moveFromSpecialMem p md d

/-- Modes 10 and 11 (30_encoding.md R144, R145). -/
def decodeMem (w : Half) : Instr :=
  let d := fieldOp2 w
  let s := fieldOp1 w
  let z := fieldSize w
  let md := fieldMd w
  match (fieldOpcode w).toNat with
  | 0 => pickSize z (.adduBMem d md s) (.adduWMem d md s) (.addsBMem d md s) (.addsWMem d md s)
  | 1 => pickSize z (.movuBMem d md s) (.movuWMem d md s) (.movsBMem d md s) (.movsWMem d md s)
  | 2 => pickSize z (.subuBMem d md s) (.subuWMem d md s) (.subsBMem d md s) (.subsWMem d md s)
  | 3 => pickSize z (.cmpuBMem d md s) (.cmpuWMem d md s) (.cmpsBMem d md s) (.cmpsWMem d md s)
  | 4 => if md then pickSize z (.muluB d s) (.muluW d s) (.muluD d s) (decodeJumpMem w)
         else pickSize z (.mulsB d s) (.mulsW d s) (.mulsD d s) (decodeJumpMem w)
  | 5 => pickSize z (.bdapB d md s) (.bdapW d md s) (.bdapD d md s)
           (if d = 0#4 then .dip md s else .unlisted w)
  | 6 => pickSize z (.reserved w) (.reserved w) (.reserved w) (decodeJumpReg w)
  | 7 => pickSize z (.boundBMem d md s) (.boundWMem d md s) (.boundDMem d md s)
           (if md ∧ s = 15#4 then .bcc16 (Cond.ofCode d) else .unlisted w)
  | 8 => pickSize z (.addBMem d md s) (.addWMem d md s) (.addDMem d md s)
           (if md ∧ s = 14#4 then .popSpecial (SReg.ofCode d) else .moveToSpecialMem (SReg.ofCode d) md s)
  | 9 => pickSize z (.moveBMem d md s) (.moveWMem d md s)
           (if md ∧ s = 14#4 then .popReg d else .moveDMem d md s)
           (decodeFromSpecialMem (SReg.ofCode d) md s)
  | 10 => pickSize z (.subBMem d md s) (.subWMem d md s) (.subDMem d md s) (.reserved w)
  | 11 => pickSize z (.cmpBMem d md s) (.cmpWMem d md s) (.cmpDMem d md s) (.reserved w)
  | 12 => pickSize z (.andBMem d md s) (.andWMem d md s) (.andDMem d md s)
            (if d = 3#4 then .rbf md s else .unlisted w)
  | 13 => pickSize z (.orBMem d md s) (.orWMem d md s) (.orDMem d md s)
            (if d = 3#4 then .sbfs md s else .unlisted w)
  | 14 => if z = 3#2 then .movemLoad d md s
          else if d = 0#4 then pickSize z (.testBMem md s) (.testWMem md s) (.testDMem md s) (.testDMem md s)
          else .unlisted w
  | _ => pickSize z (.moveBStore d md s) (.moveWStore d md s)
           (if md ∧ s = 14#4 then .pushReg d else .moveDStore d md s) (.movemStore d md s)

/-- The decode procedure (30_encoding.md R139): every word has a term; reserved and unlisted words have terms that
`exec` refuses (R153, R154). -/
def decodeWord (w : Half) : Instr :=
  match (fieldMode w).toNat with
  | 0 => decodeQuick w
  | 1 => decodeReg w
  | _ => decodeMem w

/-- Why bytes give no instruction. -/
inductive DecodeError where
  /-- Fewer than two bytes are left, so there is no instruction word. -/
  | truncated
deriving DecidableEq, Repr

/-- The instruction at the head of a list of bytes, low byte first (20_memory.md R72), and the bytes behind it. In-line
data belongs to the bytes behind: the instruction reads it when it executes (40_addressing.md R208). -/
def decodeBytes : List Byte → Except DecodeError (Instr × List Byte)
  | lo :: hi :: rest => .ok (decodeWord (hi ++ lo), rest)
  | _ => .error .truncated

/-- The first `n` bytes of a number, least significant first (20_memory.md R72). -/
def bytesOfNat : Nat → Nat → List Byte
  | 0, _ => []
  | n + 1, w => BitVec.ofNat 8 w :: bytesOfNat n (w / 256)

/-- The instruction that the decoder reads from the bits `w` of an opcode-table row; the bits above `nbits` are 0. -/
def decodeTableWord (nbits w : Nat) : Option Instr :=
  match decodeBytes (bytesOfNat 66 (w % 2 ^ nbits)) with
  | .ok (i, _) => some i
  | .error _ => none

/-! ## Encoding (the same tables, read the other way) -/

/-- A word from its five fields (30_encoding.md R131). -/
def mkWord (op2 : BitVec 4) (mode : BitVec 2) (opcode : BitVec 4) (size : BitVec 2) (op1 : BitVec 4) : Half :=
  op2 ++ mode ++ opcode ++ size ++ op1

/-- A quick-immediate word (30_encoding.md R134, R141). -/
def mkQuick (op2 : BitVec 4) (opcode : BitVec 4) (imm : BitVec 6) : Half :=
  op2 ++ 0b00#2 ++ opcode ++ imm

/-- Mode 10 or 11, bit 10 being `md` (30_encoding.md R132). -/
def memMode (md : Bool) : BitVec 2 := if md then 0b11#2 else 0b10#2

/-- The word of an instruction (30_encoding.md R141 to R151, R160 to R167). -/
def encode : Instr → Half
  | .bcc c o => c.code ++ 0b0000#4 ++ o
  | .bdapByte b o => b ++ 0b0001#4 ++ o
  | .addq d j => mkQuick d 0b1000#4 j
  | .moveq d i => mkQuick d 0b1001#4 i
  | .subq d j => mkQuick d 0b1010#4 j
  | .cmpq d i => mkQuick d 0b1011#4 i
  | .andq d i => mkQuick d 0b1100#4 i
  | .orq d i => mkQuick d 0b1101#4 i
  | .btstq d c => mkQuick d 0b1110#4 (0#1 ++ c)
  | .asrq d c => mkQuick d 0b1110#4 (1#1 ++ c)
  | .lslq d c => mkQuick d 0b1111#4 (0#1 ++ c)
  | .lsrq d c => mkQuick d 0b1111#4 (1#1 ++ c)
  | .adduBReg d s => mkWord d 0b01#2 0b0000#4 0b00#2 s
  | .adduBMem d md s => mkWord d (memMode md) 0b0000#4 0b00#2 s
  | .adduWReg d s => mkWord d 0b01#2 0b0000#4 0b01#2 s
  | .adduWMem d md s => mkWord d (memMode md) 0b0000#4 0b01#2 s
  | .addsBReg d s => mkWord d 0b01#2 0b0000#4 0b10#2 s
  | .addsBMem d md s => mkWord d (memMode md) 0b0000#4 0b10#2 s
  | .addsWReg d s => mkWord d 0b01#2 0b0000#4 0b11#2 s
  | .addsWMem d md s => mkWord d (memMode md) 0b0000#4 0b11#2 s
  | .movuBReg d s => mkWord d 0b01#2 0b0001#4 0b00#2 s
  | .movuBMem d md s => mkWord d (memMode md) 0b0001#4 0b00#2 s
  | .movuWReg d s => mkWord d 0b01#2 0b0001#4 0b01#2 s
  | .movuWMem d md s => mkWord d (memMode md) 0b0001#4 0b01#2 s
  | .movsBReg d s => mkWord d 0b01#2 0b0001#4 0b10#2 s
  | .movsBMem d md s => mkWord d (memMode md) 0b0001#4 0b10#2 s
  | .movsWReg d s => mkWord d 0b01#2 0b0001#4 0b11#2 s
  | .movsWMem d md s => mkWord d (memMode md) 0b0001#4 0b11#2 s
  | .subuBReg d s => mkWord d 0b01#2 0b0010#4 0b00#2 s
  | .subuBMem d md s => mkWord d (memMode md) 0b0010#4 0b00#2 s
  | .subuWReg d s => mkWord d 0b01#2 0b0010#4 0b01#2 s
  | .subuWMem d md s => mkWord d (memMode md) 0b0010#4 0b01#2 s
  | .subsBReg d s => mkWord d 0b01#2 0b0010#4 0b10#2 s
  | .subsBMem d md s => mkWord d (memMode md) 0b0010#4 0b10#2 s
  | .subsWReg d s => mkWord d 0b01#2 0b0010#4 0b11#2 s
  | .subsWMem d md s => mkWord d (memMode md) 0b0010#4 0b11#2 s
  | .cmpuBMem d md s => mkWord d (memMode md) 0b0011#4 0b00#2 s
  | .cmpuWMem d md s => mkWord d (memMode md) 0b0011#4 0b01#2 s
  | .cmpsBMem d md s => mkWord d (memMode md) 0b0011#4 0b10#2 s
  | .cmpsWMem d md s => mkWord d (memMode md) 0b0011#4 0b11#2 s
  | .lslBReg d s => mkWord d 0b01#2 0b0011#4 0b00#2 s
  | .lslWReg d s => mkWord d 0b01#2 0b0011#4 0b01#2 s
  | .lslDReg d s => mkWord d 0b01#2 0b0011#4 0b10#2 s
  | .negBReg d s => mkWord d 0b01#2 0b0110#4 0b00#2 s
  | .negWReg d s => mkWord d 0b01#2 0b0110#4 0b01#2 s
  | .negDReg d s => mkWord d 0b01#2 0b0110#4 0b10#2 s
  | .asrBReg d s => mkWord d 0b01#2 0b1110#4 0b00#2 s
  | .asrWReg d s => mkWord d 0b01#2 0b1110#4 0b01#2 s
  | .asrDReg d s => mkWord d 0b01#2 0b1110#4 0b10#2 s
  | .lsrBReg d s => mkWord d 0b01#2 0b1111#4 0b00#2 s
  | .lsrWReg d s => mkWord d 0b01#2 0b1111#4 0b01#2 s
  | .lsrDReg d s => mkWord d 0b01#2 0b1111#4 0b10#2 s
  | .boundBReg d s => mkWord d 0b01#2 0b0111#4 0b00#2 s
  | .boundBMem d md s => mkWord d (memMode md) 0b0111#4 0b00#2 s
  | .boundWReg d s => mkWord d 0b01#2 0b0111#4 0b01#2 s
  | .boundWMem d md s => mkWord d (memMode md) 0b0111#4 0b01#2 s
  | .boundDReg d s => mkWord d 0b01#2 0b0111#4 0b10#2 s
  | .boundDMem d md s => mkWord d (memMode md) 0b0111#4 0b10#2 s
  | .addBReg d s => mkWord d 0b01#2 0b1000#4 0b00#2 s
  | .addBMem d md s => mkWord d (memMode md) 0b1000#4 0b00#2 s
  | .addWReg d s => mkWord d 0b01#2 0b1000#4 0b01#2 s
  | .addWMem d md s => mkWord d (memMode md) 0b1000#4 0b01#2 s
  | .addDReg d s => mkWord d 0b01#2 0b1000#4 0b10#2 s
  | .addDMem d md s => mkWord d (memMode md) 0b1000#4 0b10#2 s
  | .moveBReg d s => mkWord d 0b01#2 0b1001#4 0b00#2 s
  | .moveBMem d md s => mkWord d (memMode md) 0b1001#4 0b00#2 s
  | .moveWReg d s => mkWord d 0b01#2 0b1001#4 0b01#2 s
  | .moveWMem d md s => mkWord d (memMode md) 0b1001#4 0b01#2 s
  | .moveDReg d s => mkWord d 0b01#2 0b1001#4 0b10#2 s
  | .moveDMem d md s => mkWord d (memMode md) 0b1001#4 0b10#2 s
  | .subBReg d s => mkWord d 0b01#2 0b1010#4 0b00#2 s
  | .subBMem d md s => mkWord d (memMode md) 0b1010#4 0b00#2 s
  | .subWReg d s => mkWord d 0b01#2 0b1010#4 0b01#2 s
  | .subWMem d md s => mkWord d (memMode md) 0b1010#4 0b01#2 s
  | .subDReg d s => mkWord d 0b01#2 0b1010#4 0b10#2 s
  | .subDMem d md s => mkWord d (memMode md) 0b1010#4 0b10#2 s
  | .cmpBReg d s => mkWord d 0b01#2 0b1011#4 0b00#2 s
  | .cmpBMem d md s => mkWord d (memMode md) 0b1011#4 0b00#2 s
  | .cmpWReg d s => mkWord d 0b01#2 0b1011#4 0b01#2 s
  | .cmpWMem d md s => mkWord d (memMode md) 0b1011#4 0b01#2 s
  | .cmpDReg d s => mkWord d 0b01#2 0b1011#4 0b10#2 s
  | .cmpDMem d md s => mkWord d (memMode md) 0b1011#4 0b10#2 s
  | .andBReg d s => mkWord d 0b01#2 0b1100#4 0b00#2 s
  | .andBMem d md s => mkWord d (memMode md) 0b1100#4 0b00#2 s
  | .andWReg d s => mkWord d 0b01#2 0b1100#4 0b01#2 s
  | .andWMem d md s => mkWord d (memMode md) 0b1100#4 0b01#2 s
  | .andDReg d s => mkWord d 0b01#2 0b1100#4 0b10#2 s
  | .andDMem d md s => mkWord d (memMode md) 0b1100#4 0b10#2 s
  | .orBReg d s => mkWord d 0b01#2 0b1101#4 0b00#2 s
  | .orBMem d md s => mkWord d (memMode md) 0b1101#4 0b00#2 s
  | .orWReg d s => mkWord d 0b01#2 0b1101#4 0b01#2 s
  | .orWMem d md s => mkWord d (memMode md) 0b1101#4 0b01#2 s
  | .orDReg d s => mkWord d 0b01#2 0b1101#4 0b10#2 s
  | .orDMem d md s => mkWord d (memMode md) 0b1101#4 0b10#2 s
  | .addiB k d => mkWord k 0b01#2 0b0100#4 0b00#2 d
  | .addiW k d => mkWord k 0b01#2 0b0100#4 0b01#2 d
  | .addiD k d => mkWord k 0b01#2 0b0100#4 0b10#2 d
  | .biapB k b => mkWord k 0b01#2 0b0101#4 0b00#2 b
  | .biapW k b => mkWord k 0b01#2 0b0101#4 0b01#2 b
  | .biapD k b => mkWord k 0b01#2 0b0101#4 0b10#2 b
  | .nop => mkWord 0#4 0b01#2 0b0100#4 0b00#2 15#4
  | .btst d s => mkWord d 0b01#2 0b0011#4 0b11#2 s
  | .scc c d => mkWord c.code 0b01#2 0b0100#4 0b11#2 d
  | .setf k => mkWord (k.extractLsb' 4 4) 0b01#2 0b0110#4 0b11#2 (k.extractLsb' 0 4)
  | .clearf k => mkWord (k.extractLsb' 4 4) 0b01#2 0b0111#4 0b11#2 (k.extractLsb' 0 4)
  | .moveToSpecial p s => mkWord p.code 0b01#2 0b1000#4 0b11#2 s
  | .moveFromSpecial p d => mkWord p.code 0b01#2 0b1001#4 0b11#2 d
  | .abs d s => mkWord d 0b01#2 0b1010#4 0b11#2 s
  | .dstep d s => mkWord d 0b01#2 0b1011#4 0b11#2 s
  | .lz d s => mkWord d 0b01#2 0b1100#4 0b11#2 s
  | .swap o d => mkWord o 0b01#2 0b1101#4 0b11#2 d
  | .xor d s => mkWord d 0b01#2 0b1110#4 0b11#2 s
  | .mstep d s => mkWord d 0b01#2 0b1111#4 0b11#2 s
  | .mulsB d s => mkWord d 0b10#2 0b0100#4 0b00#2 s
  | .mulsW d s => mkWord d 0b10#2 0b0100#4 0b01#2 s
  | .mulsD d s => mkWord d 0b10#2 0b0100#4 0b10#2 s
  | .muluB d s => mkWord d 0b11#2 0b0100#4 0b00#2 s
  | .muluW d s => mkWord d 0b11#2 0b0100#4 0b01#2 s
  | .muluD d s => mkWord d 0b11#2 0b0100#4 0b10#2 s
  | .bdapB b md s => mkWord b (memMode md) 0b0101#4 0b00#2 s
  | .bdapW b md s => mkWord b (memMode md) 0b0101#4 0b01#2 s
  | .bdapD b md s => mkWord b (memMode md) 0b0101#4 0b10#2 s
  | .testBMem md s => mkWord 0#4 (memMode md) 0b1110#4 0b00#2 s
  | .testWMem md s => mkWord 0#4 (memMode md) 0b1110#4 0b01#2 s
  | .testDMem md s => mkWord 0#4 (memMode md) 0b1110#4 0b10#2 s
  | .moveBStore s md d => mkWord s (memMode md) 0b1111#4 0b00#2 d
  | .moveWStore s md d => mkWord s (memMode md) 0b1111#4 0b01#2 d
  | .moveDStore s md d => mkWord s (memMode md) 0b1111#4 0b10#2 d
  | .jump md s => mkWord 0#4 (memMode md) 0b0100#4 0b11#2 s
  | .jumpReg s => mkWord 0#4 0b10#2 0b0110#4 0b11#2 s
  | .jirc md s => mkWord 2#4 (memMode md) 0b0100#4 0b11#2 s
  | .jircReg s => mkWord 2#4 0b10#2 0b0110#4 0b11#2 s
  | .jsrc md s => mkWord 3#4 (memMode md) 0b0100#4 0b11#2 s
  | .jsrcReg s => mkWord 3#4 0b10#2 0b0110#4 0b11#2 s
  | .jbrc md s => mkWord 6#4 (memMode md) 0b0100#4 0b11#2 s
  | .jbrcReg s => mkWord 6#4 0b10#2 0b0110#4 0b11#2 s
  | .jmpu md s => mkWord 8#4 (memMode md) 0b0100#4 0b11#2 s
  | .jir md s => mkWord 10#4 (memMode md) 0b0100#4 0b11#2 s
  | .jirReg s => mkWord 10#4 0b10#2 0b0110#4 0b11#2 s
  | .jsr md s => mkWord 11#4 (memMode md) 0b0100#4 0b11#2 s
  | .jsrReg s => mkWord 11#4 0b10#2 0b0110#4 0b11#2 s
  | .breakN n => mkWord 14#4 0b10#2 0b0100#4 0b11#2 n
  | .dip md s => mkWord 0#4 (memMode md) 0b0101#4 0b11#2 s
  | .bcc16 c => mkWord c.code 0b11#2 0b0111#4 0b11#2 15#4
  | .moveToSpecialMem p md s => mkWord p.code (memMode md) 0b1000#4 0b11#2 s
  | .moveFromSpecialMem p md d => mkWord p.code (memMode md) 0b1001#4 0b11#2 d
  | .rbf md s => mkWord 3#4 (memMode md) 0b1100#4 0b11#2 s
  | .sbfs md d => mkWord 3#4 (memMode md) 0b1101#4 0b11#2 d
  | .movemLoad d md s => mkWord d (memMode md) 0b1110#4 0b11#2 s
  | .movemStore s md d => mkWord s (memMode md) 0b1111#4 0b11#2 d
  | .clearBReg d => mkWord 0#4 0b01#2 0b1001#4 0b11#2 d
  | .clearBMem md d => mkWord 0#4 (memMode md) 0b1001#4 0b11#2 d
  | .clearWReg d => mkWord 4#4 0b01#2 0b1001#4 0b11#2 d
  | .clearWMem md d => mkWord 4#4 (memMode md) 0b1001#4 0b11#2 d
  | .clearDReg d => mkWord 8#4 0b01#2 0b1001#4 0b11#2 d
  | .clearDMem md d => mkWord 8#4 (memMode md) 0b1001#4 0b11#2 d
  | .ret => mkWord 11#4 0b01#2 0b1001#4 0b11#2 15#4
  | .retb => mkWord 14#4 0b01#2 0b1001#4 0b11#2 15#4
  | .reti => mkWord 10#4 0b01#2 0b1001#4 0b11#2 15#4
  | .notReg d => mkWord 8#4 0b01#2 0b1101#4 0b11#2 d
  | .ax => mkWord 1#4 0b01#2 0b0110#4 0b11#2 0#4
  | .ei => mkWord 2#4 0b01#2 0b0110#4 0b11#2 0#4
  | .di => mkWord 2#4 0b01#2 0b0111#4 0b11#2 0#4
  | .popReg d => mkWord d 0b11#2 0b1001#4 0b10#2 14#4
  | .popSpecial p => mkWord p.code 0b11#2 0b1000#4 0b11#2 14#4
  | .pushReg s => mkWord s 0b11#2 0b1111#4 0b10#2 14#4
  | .pushSpecial p => mkWord p.code 0b11#2 0b1001#4 0b11#2 14#4
  | .testBReg s => mkWord s 0b01#2 0b1001#4 0b00#2 s
  | .testWReg s => mkWord s 0b01#2 0b1001#4 0b01#2 s
  | .testDReg s => mkWord s 0b01#2 0b1001#4 0b10#2 s
  | .reserved w => w
  | .unlisted w => w
  | .tableNote => 0#16

end Sys2Proof
end

