-- ==== Sys2Proof/Config.lean ====
section
/-! DEFINITION. Sys2Proof/Config.lean: what an implementation fixes (00_scope.md R6, R7), and the free values. -/

namespace Sys2Proof.Config

/-- VR, the CPU version number (10_state.md R35). -/
def versionRegister : Byte := 10#8

/-- `BOOT_METHOD`, a parameter (70_reset_and_hazards.md R523, 00_scope.md R7; log 5). -/
inductive BootMethod where
  | prom
  | net
  | parallel
  | serial
deriving DecidableEq, Repr

/-- Where execution starts, by boot method (70_reset_and_hazards.md R523). -/
def resetPc : BootMethod → Word
  | .prom => 0x80000002#32
  | .net => 0x380000F0#32
  | .parallel => 0x380000F0#32
  | .serial => 0x380000F4#32

/-- The default of `BOOT_METHOD` (70_reset_and_hazards.md R523, D11). DESIGN CHOICE, unsafe: log 5. -/
def bootMethod : BootMethod := .prom

/-- `SR_OFF_PC`, `SR_OFF_STATE`, `SR_OFF_INSTR`, `SR_OFF_ADDR`, `SR_OFF_DATA`: the byte offsets of the five fields of the
CPU status record (60_exceptions.md R481, 00_scope.md R7). A parameter: log 12. -/
structure RecordLayout where
  /-- `SR_OFF_PC`. -/
  pc : Nat
  /-- `SR_OFF_STATE`. -/
  state : Nat
  /-- `SR_OFF_INSTR`. -/
  instr : Nat
  /-- `SR_OFF_ADDR`. -/
  addr : Nat
  /-- `SR_OFF_DATA`. -/
  data : Nat
deriving DecidableEq, Repr

/-- The defaults of `SR_OFF_*` (60_exceptions.md R481, D2). DESIGN CHOICE, unsafe: log 12. -/
def recordLayout : RecordLayout := { pc := 0, state := 4, instr := 6, addr := 8, data := 12 }

/-- `TLB_RANDOM`: the set number that the MMU proposes at the n-th TLB miss (20_memory.md R103). A free value: log 8. -/
opaque tlbRandom : Nat → BitVec 2

/-- The n-th arbitrary 16-bit value (60_exceptions.md R485). A free value: log 9. -/
opaque freeHalf : Nat → Half

/-- The n-th arbitrary 32-bit value (60_exceptions.md R487, 10_state.md R52). A free value: log 9. -/
opaque freeWord : Nat → Word

end Sys2Proof.Config
end

