-- ==== Sys2Proof/Machine/State.lean ====
section
/-! DEFINITION. Sys2Proof/Machine/State.lean: everything the spec gives the machine, as plain data, and the state after
reset (10_state.md, 20_memory.md R84 and R91, 60_exceptions.md R452 and R481; INVENTORY.md lists each piece). -/

namespace Sys2Proof.Machine

/-- The two operation modes (10_state.md R26). -/
inductive Mode where
  | supervisor
  | user
deriving DecidableEq, Repr

/-- The eleven flags of CCR, bit 0 first (10_state.md R36). -/
structure Flags where
  /-- Carry, bit 0. -/
  c : Bool
  /-- Overflow, bit 1. -/
  v : Bool
  /-- Zero, bit 2. -/
  z : Bool
  /-- Negative, bit 3. -/
  n : Bool
  /-- Arithmetic extend, bit 4. -/
  x : Bool
  /-- Interrupt enable, bit 5. -/
  i : Bool
  /-- Hardware breakpoint enable, bit 6. -/
  b : Bool
  /-- NMI enable, bit 7. -/
  m : Bool
  /-- User mode flag, bit 8. -/
  u : Bool
  /-- Write failed, bit 9. -/
  p : Bool
  /-- Interrupted, bit 10. -/
  f : Bool
deriving DecidableEq, Repr

/-- The special registers with storage of their own. CCR and DCCR are `Flags`, USP is `State.usp`; P0, P4, P8 and VR have
no storage (10_state.md R33 to R48). -/
structure SpecialRegs where
  /-- P7, Multiply Overflow (10_state.md R42). -/
  mof : Word
  /-- P9, the stored upper 16 bits of the Interrupt Base Register (10_state.md R43). -/
  ibr : Half
  /-- P10, Interrupt Return Pointer (10_state.md R44). -/
  irp : Word
  /-- P11, Subroutine Return Pointer (10_state.md R45). -/
  srp : Word
  /-- P12, Breakpoint Address Register (10_state.md R46). -/
  bar : Word
  /-- P14, Breakpoint Return Pointer (10_state.md R47). -/
  brp : Word
deriving DecidableEq, Repr

/-- A pending delayed transfer of control (10_state.md R31). -/
structure Delay where
  /-- Where control goes after the delay slot. -/
  target : Word
  /-- The mark of RETI and RETB: a change to user mode may follow the slot (45_jump_branch.md R425). -/
  ret : Bool
deriving DecidableEq, Repr

/-- The prefetch register: the upper halfword of the dword fetched last (10_state.md R61, 20_memory.md R77). -/
structure Prefetch where
  /-- The virtual address of the halfword. -/
  addr : Word
  /-- Its physical address, for the check of 20_memory.md R91. -/
  phys : Word
  /-- The halfword. -/
  half : Half
deriving DecidableEq, Repr

/-- The CPU status record, and the hidden CPU status registers that hold it (60_exceptions.md R481, 10_state.md R62). -/
structure StatusRecord where
  /-- PC field. -/
  pc : Word
  /-- Execution state field. -/
  state : Half
  /-- Instruction field. -/
  instr : Half
  /-- Interrupted address field. -/
  addr : Word
  /-- Data field. -/
  data : Word
deriving DecidableEq, Repr

/-- The data cycle that RBF restarts (60_exceptions.md R490). -/
structure RestartCycle where
  /-- The instruction word, not fetched again. -/
  instr : Half
  /-- The operand address. -/
  addr : Word
  /-- The data field of the record. -/
  data : Word
  /-- Start with the second cycle of a split access. -/
  second : Bool
deriving DecidableEq, Repr

/-- The restart that RBF hands to the next step (60_exceptions.md R490). The cell is the model's: log 24. -/
structure Restart where
  /-- The address after the restarted word: its value of PC as an operand, and where its in-line data stands. For a data
  cycle in a delay slot it is the branch target: DESIGN CHOICE, unsafe: log 46. -/
  next : Word
  /-- Empty for the restart of an instruction fetch. -/
  cycle : Option RestartCycle
deriving DecidableEq, Repr

/-- One of the 64 TLB entries, 44 bits (10_state.md R64). -/
structure TlbEntry where
  /-- Address bits 31:17. -/
  vpn : BitVec 15
  /-- The process id. -/
  pageId : BitVec 6
  /-- The physical page number. -/
  pfn : BitVec 19
  /-- Bit 22. -/
  global : Bool
  /-- Bit 21. -/
  valid : Bool
  /-- Bit 20. -/
  kernel : Bool
  /-- Bit 19, write enable. -/
  we : Bool
deriving DecidableEq, Repr

/-- R_MMU_CAUSE (10_state.md R58, 60_exceptions.md R472). -/
structure MmuCause where
  /-- Bits 31:13 of the address of the faulting cycle. -/
  vpn : BitVec 19
  /-- Copy of R_MMU_CONTEXT. -/
  pageId : BitVec 6
  /-- miss_excp. -/
  miss : Bool
  /-- inv_excp. -/
  inv : Bool
  /-- acc_excp. -/
  acc : Bool
  /-- we_excp. -/
  we : Bool
  /-- wr_rd: the access was a write. -/
  write : Bool
deriving DecidableEq, Repr

/-- The MMU registers and the TLB (10_state.md R52 to R60, R64). -/
structure Mmu where
  /-- R_MMU_ENABLE, mmu_en. -/
  enable : Bool
  /-- R_MMU_KSEG: bit n is 1 when kernel segment n is linear-mapped. -/
  kseg : BitVec 16
  /-- R_MMU_CTRL: invalid page exception enable. -/
  invExcp : Bool
  /-- R_MMU_CTRL: access violation exception enable. -/
  accExcp : Bool
  /-- R_MMU_CTRL: write error exception enable. -/
  weExcp : Bool
  /-- R_MMU_KBASE_LO: base_n in bits 4n+3:4n. -/
  kbaseLo : Word
  /-- R_MMU_KBASE_HI: base_n in bits 4(n-8)+3:4(n-8). -/
  kbaseHi : Word
  /-- R_MMU_CONTEXT, page_id. -/
  context : BitVec 6
  /-- R_MMU_CAUSE. -/
  cause : MmuCause
  /-- R_TLB_SELECT, the index of the entry that R_TLB_LO and R_TLB_HI show. -/
  select : BitVec 6
  /-- R_TEST_MODE, mmu_test. -/
  testMode : Bool
  /-- The TLB; index 16*set + location. -/
  tlb : Vector TlbEntry 64
deriving DecidableEq, Repr

/-- What a region of physical memory is (20_memory.md R84). -/
inductive RegionKind where
  | ram
  | rom
deriving DecidableEq, Repr

/-- A region of `PHYS_MEM`, at a 31-bit physical address (20_memory.md R81, R84). -/
structure Region where
  /-- First address. -/
  base : Nat
  /-- Length in bytes. -/
  size : Nat
  /-- Writable or read-only. -/
  kind : RegionKind
deriving DecidableEq, Repr

/-- The named fields of the MMU registers (10_state.md R53 to R60). -/
inductive MmuField where
  | kseg | invExcp | accExcp | weExcp | enable | kbaseLo | kbaseHi | context
  | causeVpn | causePageId | causeMiss | causeInv | causeAcc | causeWe | causeWrite | select
  | loPfn | loGlobal | loValid | loKernel | loWe | hiVpn | hiPageId | testMode
deriving DecidableEq, Repr

/-- Where a field stands in a register: bit `lo` upward (`MMU_REG_ADDR`, 10_state.md R52). -/
structure FieldPlace where
  /-- The field. -/
  field : MmuField
  /-- Its lowest bit. -/
  lo : Nat
deriving DecidableEq, Repr

/-- One entry of `MMU_REG_ADDR`: the 31-bit physical address of a register, its access width and its layout (10_state.md
R52). R_MMU_CONFIG and its parts R_MMU_KSEG, R_MMU_CTRL, R_MMU_ENABLE (R53) may have entries of their own. -/
structure MmuWindow where
  /-- 31-bit physical address. -/
  addr : Nat
  /-- Width in bytes: 1, 2 or 4. -/
  bytes : Nat
  /-- Where its fields stand. -/
  fields : List FieldPlace
deriving DecidableEq, Repr

/-- One answer of `IRQ_ORACLE` at an event check (60_exceptions.md R452 (a), (b)). -/
structure IrqAnswer where
  /-- A maskable interrupt is requested, and this is the vector number of the INTA cycle. -/
  irq : Option Byte
  /-- NMI is requested. -/
  nmi : Bool
deriving DecidableEq, Repr

/-- The physical addresses (31 bits) that the CPU has stored to, for 20_memory.md R91 and U12. The bookkeeping is the
model's: log 16. -/
structure Stores where
  /-- Stored since the last transfer of control. -/
  fresh : List Nat
  /-- Stored through an address with bit 31 clear. -/
  cached : List Nat
  /-- Stored through an address with bit 31 set. -/
  uncached : List Nat
deriving DecidableEq, Repr

/-- Everything a step reads or writes. -/
structure State where
  /-- R0 to R13 (10_state.md R20). -/
  regs : Vector Word 14
  /-- The supervisor stack pointer (10_state.md R24). -/
  ssp : Word
  /-- The user stack pointer, P15 (10_state.md R24, R48). -/
  usp : Word
  /-- The program counter (10_state.md R27). -/
  pc : Word
  /-- The operation mode (10_state.md R26). -/
  mode : Mode
  /-- CCR and DCCR (10_state.md R36, R37). -/
  flags : Flags
  /-- MOF, IBR, IRP, SRP, BAR, BRP. -/
  sregs : SpecialRegs
  /-- The pending delayed transfer (10_state.md R31). -/
  delay : Option Delay
  /-- The address that a prefix word handed over (10_state.md R63). -/
  prefixAddr : Option Word
  /-- The interrupt inhibit bit (10_state.md R50). -/
  inhibit : Bool
  /-- The latched hardware-breakpoint hit (60_exceptions.md R464). -/
  hwbreakPending : Bool
  /-- The prefetch register (10_state.md R61). -/
  prefetch : Option Prefetch
  /-- The hidden CPU status registers (10_state.md R62). -/
  hidden : StatusRecord
  /-- The restart that RBF has set up for the next step (60_exceptions.md R490; log 24). -/
  resume : Option Restart
  /-- The MMU (10_state.md R52). -/
  mmu : Mmu
  /-- Physical memory by 31-bit address, in canonical form (20_memory.md R84). -/
  mem : List Host.Cell
  /-- Bytes the CPU has stored (20_memory.md R91; log 16). -/
  stores : Stores
  /-- `PHYS_MEM`: where memory is (20_memory.md R84; log 4). -/
  physMap : List Region
  /-- `MMU_REG_ADDR`: where the MMU registers are (10_state.md R52; log 6). -/
  mmuMap : List MmuWindow
  /-- `SR_OFF_*`: where the fields of a status record stand in memory (60_exceptions.md R481; log 12). No step changes it. -/
  layout : Config.RecordLayout
  /-- `IRQ_ORACLE` at the coming event checks; no answer left means nothing is requested (60_exceptions.md R452; log 7). -/
  irqs : List IrqAnswer
  /-- `IRQ_ORACLE` for the coming bus cycles: does the single-step unit signal (60_exceptions.md R468; log 7). -/
  steps : List Bool
  /-- What another agent (the DMA) writes to `PHYS_MEM` before each coming bus cycle, oldest first; nothing listed means no
  write (00_scope.md R15, 20_memory.md R89; log 43). -/
  outside : List (List Host.Cell)
  /-- TLB misses so far, the argument of `Config.tlbRandom` (20_memory.md R103; log 8). -/
  missCount : Nat
  /-- Arbitrary values drawn so far, the argument of `Config.freeHalf` and `Config.freeWord` (log 9). -/
  freeCount : Nat
deriving DecidableEq, Repr

/-- Reasons the model stops where the CPU has no reaction of its own. All are safe: the machine goes no further. -/
inductive Fault where
  /-- A transfer of control to an odd address (U3, 10_state.md R32). Raised by `jumpTo`, by the fetch and by RBF. Safe. -/
  | oddTarget (target : Word)
  /-- The bus-fault vector read bus-faults for ever, "stuck" (60_exceptions.md R469, R493; U25). Raised by
  `takeException`. Safe. -/
  | busFaultLoop
deriving DecidableEq, Repr

/-- Reasons the model gives no meaning. All are safe: the machine goes no further. -/
inductive Refusal where
  /-- The instruction has no meaning in the model yet. Raised by `exec` only. Safe. -/
  | notModelled (mnemonic : String)
  /-- A word marked "(Reserved)" (U1, 30_encoding.md R153). Raised by `execReserved`. Safe. -/
  | reservedEncoding (w : Half)
  /-- A word in no table (U1, 30_encoding.md R153). Raised by `execUnlisted`. Safe. -/
  | unlistedEncoding (w : Half)
  /-- The opcode table's explanatory row, no instruction; no word decodes to it. Raised by `execTableNote`. Safe. -/
  | notAnInstruction
  /-- PC as the destination of an instruction that does not support it (U2). Raised by the register-writing forms. Safe. -/
  | pcDestination
  /-- A MOVE that names P2, P3 or P6 (U4, 10_state.md R49). Raised by the special-register moves. Safe. -/
  | undefinedSpecialRegister (p : SReg)
  /-- A prefix word before a word that cannot use it (U5, 30_encoding.md R152). Raised by such words. Safe. -/
  | prefixUnusable
  /-- "With assign" naming PC (U6 c, 40_addressing.md R215). Raised by `operandRefusal`. Safe. -/
  | assignToPc
  /-- MOVEM from memory that loads and also updates its address register (U6 d). Raised by MOVEM. Safe. -/
  | movemAddressLoaded
  /-- MOVEM from memory that bus-faults after it has loaded PC (U6 e). Raised by MOVEM. Safe. -/
  | movemPcPartlyLoaded
  /-- Restart of a MOVEM that used a prefix with assign (U6 f, 60_exceptions.md R491). Raised by MOVEM. Safe. -/
  | movemAssignRestart
  /-- Operand1 differs from the destination in a prefixed MOVE, MOVS or MOVU with md = 0 (U7). Raised by these. Safe. -/
  | operand1Differs
  /-- PC read as a register operand by a word with in-line data (U9). Raised by the arithmetic forms. Safe. -/
  | pcReadWithInlineData
  /-- A physical address where nothing exists (U11, 20_memory.md R82). Raised by the physical access. Safe. -/
  | unmappedPhysical (addr : Nat)
  /-- A write to read-only memory, which no source describes (20_memory.md R84). Raised by the physical access. Safe. -/
  | romWrite (addr : Nat)
  /-- An access that covers part of an MMU register, or more than it; not described (10_state.md R52). Safe. -/
  | mmuPartialAccess (addr : Nat)
  /-- A direct write to R_MMU_CAUSE, which no source describes (10_state.md R58). Raised by the MMU write. Safe. -/
  | mmuCauseWrite
  /-- A fetch of a stored byte outside the safe pattern (U12, 20_memory.md R91). Raised by the fetch. Safe. -/
  | selfModifiedCode (addr : Nat)
  /-- MMU test mode with the MMU on and a failing lookup (U13, 20_memory.md R101). Raised by `translate`. Safe. -/
  | testModeFailedLookup
  /-- A forbidden instruction in a delay slot whose transfer is taken (U14, 45_jump_branch.md R404). Safe. -/
  | forbiddenInDelaySlot
  /-- RBF on a record that contradicts itself (U15, 60_exceptions.md R488). Raised by RBF. Safe. -/
  | inconsistentRecord
deriving DecidableEq, Repr

/-- Flags all 0 (10_state.md R36). -/
def Flags.zero : Flags :=
  { c := false, v := false, z := false, n := false, x := false, i := false, b := false, m := false, u := false,
    p := false, f := false }

/-- The TLB entry of all zeros. DESIGN CHOICE, unsafe: log 2. -/
def TlbEntry.zero : TlbEntry :=
  { vpn := 0, pageId := 0, pfn := 0, global := false, valid := false, kernel := false, we := false }

/-- R_MMU_CAUSE of all zeros. DESIGN CHOICE, unsafe: log 2. -/
def MmuCause.zero : MmuCause :=
  { vpn := 0, pageId := 0, miss := false, inv := false, acc := false, we := false, write := false }

/-- The MMU after reset: disabled (20_memory.md R94, 70_reset_and_hazards.md R521); the rest is log 2. -/
def Mmu.reset : Mmu :=
  { enable := false, kseg := 0, invExcp := false, accExcp := false, weExcp := false, kbaseLo := 0, kbaseHi := 0,
    context := 0, cause := MmuCause.zero, select := 0, testMode := false, tlb := Vector.replicate 64 TlbEntry.zero }

/-- The parameters that no source fixes and that the model takes as arguments (00_scope.md R7). `TLB_RANDOM` is
`Config.tlbRandom`. -/
structure Parameters where
  /-- `BOOT_METHOD` (70_reset_and_hazards.md R523; log 5). -/
  bootMethod : Config.BootMethod
  /-- `SR_OFF_*` (60_exceptions.md R481; log 12). -/
  layout : Config.RecordLayout
  /-- `PHYS_MEM`, its domain (20_memory.md R84; log 4). -/
  physMap : List Region
  /-- `PHYS_MEM`, its initial content, in canonical form (70_reset_and_hazards.md R524; log 3). -/
  mem : List Host.Cell
  /-- `MMU_REG_ADDR` (10_state.md R52; log 6). -/
  mmuMap : List MmuWindow
  /-- `IRQ_ORACLE` at event checks (60_exceptions.md R452; log 7). -/
  irqs : List IrqAnswer
  /-- `IRQ_ORACLE` in bus cycles (60_exceptions.md R468; log 7). -/
  steps : List Bool
  /-- The writes of another agent (00_scope.md R15; log 43). -/
  outside : List (List Host.Cell)
deriving DecidableEq, Repr

/-- The values that `State.reset` takes: the defaults of D2, D10 and D11, and RAM everywhere. DESIGN CHOICE, unsafe: log 3 to
log 7, log 12, log 43. -/
def Parameters.defaults : Parameters :=
  { bootMethod := Config.bootMethod, layout := Config.recordLayout,
    physMap := [{ base := 0, size := 0x80000000, kind := .ram }], mem := [], mmuMap := [], irqs := [], steps := [],
    outside := [] }

/-- The machine right after reset, for given parameters (70_reset_and_hazards.md R521, R523; 10_state.md R65; 00_scope.md R7).
Registers that the spec leaves unknown are 0: DESIGN CHOICE, unsafe: log 1, log 2. -/
def State.resetWith (p : Parameters) : State :=
  { regs := Vector.replicate 14 0#32, ssp := 0, usp := 0, pc := Config.resetPc p.bootMethod, mode := .supervisor,
    flags := Flags.zero, sregs := { mof := 0, ibr := 0, irp := 0, srp := 0, bar := 0, brp := 0 }, delay := none,
    prefixAddr := none, inhibit := false, hwbreakPending := false, prefetch := none,
    hidden := { pc := 0, state := 0, instr := 0, addr := 0, data := 0 }, resume := none, mmu := Mmu.reset, mem := p.mem,
    stores := { fresh := [], cached := [], uncached := [] }, physMap := p.physMap, mmuMap := p.mmuMap, layout := p.layout,
    irqs := p.irqs, steps := p.steps, outside := p.outside, missCount := 0, freeCount := 0 }

/-- The machine right after reset, with the default parameters (70_reset_and_hazards.md R521). -/
def State.reset : State := State.resetWith Parameters.defaults

end Sys2Proof.Machine
end

