-- ==== Sys2Proof/Machine/Flags.lean ====
section
/-! DEFINITION. Sys2Proof/Machine/Flags.lean: operation sizes, conditions, CCR as a bit pattern, and every flag
computation (10_state.md R22, R36 to R41, 42_arithmetic.md R281, R313, R314, 43_logic_shift_bit.md R355). -/

namespace Sys2Proof.Machine

/-! ## Operation sizes (00_scope.md R9, R10) -/

/-- `bytes(m)`. -/
def sizeBytes : Size → Nat
  | .byte => 1
  | .word => 2
  | .dword => 4

/-- `trunc_bits(m)(v)`, as a dword. -/
def truncSize : Size → Word → Word
  | .byte, v => (v.setWidth 8).setWidth 32
  | .word, v => (v.setWidth 16).setWidth 32
  | .dword, v => v

/-- `sext_bits(m)(v)`, as a dword. -/
def sextSize : Size → Word → Word
  | .byte, v => (v.setWidth 8).signExtend 32
  | .word, v => (v.setWidth 16).signExtend 32
  | .dword, v => v

/-- The most significant bit at the operation size (00_scope.md R8). -/
def msbSize : Size → Word → Bool
  | .byte, v => v.getLsbD 7
  | .word, v => v.getLsbD 15
  | .dword, v => v.getLsbD 31

/-- A partial write: the low `bits(m)` bits of `old` replaced by those of `v` (10_state.md R22). -/
def mergeSize : Size → Word → Word → Word
  | .byte, old, v => old.extractLsb' 8 24 ++ v.setWidth 8
  | .word, old, v => old.extractLsb' 16 16 ++ v.setWidth 16
  | .dword, _, v => v

/-! ## CCR -/

/-- The condition predicates (10_state.md R38). -/
def condHolds (c : Cond) (f : Flags) : Bool :=
  match c with
  | .cc => !f.c
  | .cs => f.c
  | .ne => !f.z
  | .eq => f.z
  | .vc => !f.v
  | .vs => f.v
  | .pl => !f.n
  | .mi => f.n
  | .ls => f.c || f.z
  | .hi => !f.c && !f.z
  | .ge => f.n == f.v
  | .lt => f.n != f.v
  | .gt => f.n == f.v && !f.z
  | .le => f.z || f.n != f.v
  | .a => true
  | .wf => f.p

/-- CCR as 16 bits: bits 10 to 0 are F P U M B I X N Z V C, the others 0 (10_state.md R36; log 11 for P and F). -/
def ccrOfFlags (f : Flags) : Half :=
  0#5 ++ BitVec.ofBool f.f ++ BitVec.ofBool f.p ++ BitVec.ofBool f.u ++ BitVec.ofBool f.m ++ BitVec.ofBool f.b ++
    BitVec.ofBool f.i ++ BitVec.ofBool f.x ++ BitVec.ofBool f.n ++ BitVec.ofBool f.z ++ BitVec.ofBool f.v ++
    BitVec.ofBool f.c

/-- MOVE to CCR or DCCR: M is kept, X is not loaded, I and B only in supervisor mode (41_data_transfer.md R247). -/
def loadFlags (mode : Mode) (v : Word) (f : Flags) : Flags :=
  { f with
    c := v.getLsbD 0, v := v.getLsbD 1, z := v.getLsbD 2, n := v.getLsbD 3
    i := if mode = .supervisor then v.getLsbD 5 else f.i
    b := if mode = .supervisor then v.getLsbD 6 else f.b
    u := v.getLsbD 8, p := v.getLsbD 9, f := v.getLsbD 10 }

/-- SETF: listed flags become 1, M, B and I only in supervisor mode, X becomes its mask bit (44_flags_nop.md R381). -/
def setFlagList (mode : Mode) (k : BitVec 8) (f : Flags) : Flags :=
  { f with
    c := f.c || k.getLsbD 0, v := f.v || k.getLsbD 1, z := f.z || k.getLsbD 2, n := f.n || k.getLsbD 3
    x := k.getLsbD 4
    i := f.i || (k.getLsbD 5 && mode == .supervisor)
    b := f.b || (k.getLsbD 6 && mode == .supervisor)
    m := f.m || (k.getLsbD 7 && mode == .supervisor) }

/-- CLEARF: listed flags become 0, B and I only in supervisor mode, M never; X, F and P always (44_flags_nop.md R382). -/
def clearFlagList (mode : Mode) (k : BitVec 8) (f : Flags) : Flags :=
  { f with
    c := f.c && !k.getLsbD 0, v := f.v && !k.getLsbD 1, z := f.z && !k.getLsbD 2, n := f.n && !k.getLsbD 3
    x := false
    i := f.i && !(k.getLsbD 5 && mode == .supervisor)
    b := f.b && !(k.getLsbD 6 && mode == .supervisor)
    f := false, p := false }

/-! ## Flags of a result -/

/-- Z of a result: with X set, a zero result keeps the old Z (10_state.md R39). -/
def zeroFlag (isZero : Bool) (f : Flags) : Bool := isZero && (f.z || !f.x)

/-- `setNZ_m(r)` (10_state.md R39). -/
def setNZ (m : Size) (r : Word) (f : Flags) : Flags :=
  { f with n := msbSize m r, z := zeroFlag (truncSize m r == 0) f }

/-- `setNZ_m(r) ; V <- 0 ; C <- 0`, the row of moves, logic, shifts and others. -/
def setNZ00 (m : Size) (r : Word) (f : Flags) : Flags :=
  { setNZ m r f with v := false, c := false }

/-- The carry-in, `cin = C_old if X_old else 0` (10_state.md R40, 42_arithmetic.md R281). -/
def carryIn (f : Flags) : Word := if f.x && f.c then 1#32 else 0#32

/-- Flags of an addition R = D + S + cin (10_state.md R40). -/
def addFlags (m : Size) (d s r : Word) (f : Flags) : Flags :=
  let sk := msbSize m s
  let dk := msbSize m d
  let rk := msbSize m r
  { setNZ m r f with
    v := (sk && dk && !rk) || (!sk && !dk && rk)
    c := (sk && dk) || (dk && !rk) || (sk && !rk) }

/-- Flags of a subtraction R = D - S - cin (10_state.md R40). -/
def subFlags (m : Size) (d s r : Word) (f : Flags) : Flags :=
  let sk := msbSize m s
  let dk := msbSize m d
  let rk := msbSize m r
  { setNZ m r f with
    v := (!sk && dk && !rk) || (sk && !dk && rk)
    c := (sk && !dk) || (!dk && rk) || (sk && rk) }

/-! ## Results: from the flags, the destination operand and the source operand to the result and the new flags.
Operands and results are at the operation size. -/

/-- A result with its flags. -/
abbrev Calc := Flags → Word → Word → Word × Flags

/-- ADD, ADDQ, ADDS, ADDU (42_arithmetic.md R285, R287 to R289). -/
def calcAdd (m : Size) : Calc := fun f d s =>
  let r := truncSize m (d + s + carryIn f)
  (r, addFlags m d s r f)

/-- SUB, SUBQ, SUBS, SUBU, and CMP and its kind (42_arithmetic.md R291 to R294, R298 to R301). -/
def calcSub (m : Size) : Calc := fun f d s =>
  let r := truncSize m (d - s - carryIn f)
  (r, subFlags m d s r f)

/-- NEG (42_arithmetic.md R297). -/
def calcNeg (m : Size) : Calc := fun f _ s => calcSub m f 0#32 s

/-- MOVE, MOVEQ, MOVS, TEST (41_data_transfer.md R244, R250, R251, 42_arithmetic.md R302). -/
def calcMove (m : Size) : Calc := fun f _ s => (s, setNZ00 m s f)

/-- MOVU: N is cleared (41_data_transfer.md R252). -/
def calcMovu : Calc := fun f _ s => (s, { setNZ00 .dword s f with n := false })

/-- AND, ANDQ (43_logic_shift_bit.md R343, R344). -/
def calcAnd (m : Size) : Calc := fun f d s =>
  let r := truncSize m (d &&& s)
  (r, setNZ00 m r f)

/-- OR, ORQ (43_logic_shift_bit.md R346, R347). -/
def calcOr (m : Size) : Calc := fun f d s =>
  let r := truncSize m (d ||| s)
  (r, setNZ00 m r f)

/-- XOR (43_logic_shift_bit.md R348). -/
def calcXor : Calc := fun f d s => (d ^^^ s, setNZ00 .dword (d ^^^ s) f)

/-- BOUND: unsigned minimum, the carry-in added to the index (42_arithmetic.md R290; log 14). -/
def calcBound : Calc := fun f d s =>
  let r := if s.toNat < d.toNat + (carryIn f).toNat then s else d
  (r, setNZ00 .dword r f)

/-- ABS (42_arithmetic.md R284; log 14 for the carry-in). -/
def calcAbs : Calc := fun f _ s =>
  let r := if s.msb then 0#32 - s - carryIn f else s
  (r, setNZ00 .dword r f)

/-- ADDI: no flag changes (42_arithmetic.md R286; log 14 for the carry-in). -/
def calcAddi (shift : Nat) : Calc := fun f d s => (d + (s <<< shift) + carryIn f, f)

/-- DSTEP (42_arithmetic.md R295; log 14 for the carry-in). -/
def calcDstep : Calc := fun f d s =>
  let t := d <<< 1
  let r := if s.toNat + (carryIn f).toNat ≤ t.toNat then t - s - carryIn f else t
  (r, setNZ00 .dword r f)

/-- MSTEP (42_arithmetic.md R296; log 14 for the carry-in). -/
def calcMstep : Calc := fun f d s =>
  let t := d <<< 1
  let r := if f.n then t + s + carryIn f else t
  (r, setNZ00 .dword r f)

/-- The shift count, the low six bits of the source (43_logic_shift_bit.md R342). -/
def shiftCount (s : Word) : Nat := (s &&& 63#32).toNat

/-- ASR, ASRQ: counts of 32 and more act as 31 (43_logic_shift_bit.md R349, R350). -/
def calcAsr (m : Size) : Calc := fun f d s =>
  let r := truncSize m ((sextSize m d).sshiftRight (min (shiftCount s) 31))
  (r, setNZ00 m r f)

/-- LSL, LSLQ (43_logic_shift_bit.md R351, R352). -/
def calcLsl (m : Size) : Calc := fun f d s =>
  let r := truncSize m (d <<< shiftCount s)
  (r, setNZ00 m r f)

/-- LSR, LSRQ (43_logic_shift_bit.md R353, R354). -/
def calcLsr (m : Size) : Calc := fun f d s =>
  let r := truncSize m d >>> shiftCount s
  (r, setNZ00 m r f)

/-- BTST, BTSTQ: N is bit n, Z says whether bits n to 0 are all 0 (43_logic_shift_bit.md R355, R356; log 35). -/
def calcBtst : Calc := fun f d s =>
  let n := (s &&& 31#32).toNat
  (d, { f with n := d.getLsbD n, z := zeroFlag (d <<< (31 - n) == 0#32) f, v := false, c := false })

/-- The number of leading zeros among the `n` low bits (43_logic_shift_bit.md R357). -/
def leadingZeros (s : Word) : Nat → Nat
  | 0 => 0
  | n + 1 => if s.getLsbD n then 0 else leadingZeros s n + 1

/-- LZ: N is cleared (43_logic_shift_bit.md R357). -/
def calcLz : Calc := fun f _ s =>
  let r := BitVec.ofNat 32 (leadingZeros s 32)
  (r, { f with n := false, z := zeroFlag (r == 0#32) f, v := false, c := false })

/-- SWAP, the options in the low four bits of the source: N W B R from bit 3 down (41_data_transfer.md R260). -/
def calcSwap : Calc := fun f d o =>
  let v := if o.getLsbD 3 then ~~~d else d
  let v := if o.getLsbD 2 then (v <<< 16) ||| ((v >>> 16) &&& 0xffff#32) else v
  let v := if o.getLsbD 1 then ((v <<< 8) &&& 0xff00ff00#32) ||| ((v >>> 8) &&& 0x00ff00ff#32) else v
  let v := if o.getLsbD 0 then
      ((v <<< 7) &&& 0x80808080#32) ||| ((v <<< 5) &&& 0x40404040#32) ||| ((v <<< 3) &&& 0x20202020#32) |||
      ((v <<< 1) &&& 0x10101010#32) ||| ((v >>> 1) &&& 0x08080808#32) ||| ((v >>> 3) &&& 0x04040404#32) |||
      ((v >>> 5) &&& 0x02020202#32) ||| ((v >>> 7) &&& 0x01010101#32)
    else v
  (v, setNZ00 .dword v f)

/-- Scc: 1 or 0, no flag changes (41_data_transfer.md R261). -/
def calcScc (c : Cond) : Calc := fun f _ _ => (if condHolds c f then 1#32 else 0#32, f)

/-- The 64-bit product of MULS, operands sign extended from the size (42_arithmetic.md R313). -/
def productSigned (m : Size) (a b : Word) : BitVec 64 := (sextSize m a).signExtend 64 * (sextSize m b).signExtend 64

/-- The 64-bit product of MULU (42_arithmetic.md R314). -/
def productUnsigned (m : Size) (a b : Word) : BitVec 64 := (truncSize m a).setWidth 64 * (truncSize m b).setWidth 64

/-- The lower dword of a product, for Rd. -/
def productLow (p : BitVec 64) : Word := p.setWidth 32

/-- The upper dword of a product, for MOF. -/
def productHigh (p : BitVec 64) : Word := p.extractLsb' 32 32

/-- Flags of MULS: V when MOF is not the sign extension of the low dword (42_arithmetic.md R313). -/
def mulsFlags (p : BitVec 64) (f : Flags) : Flags :=
  { f with
    n := (productHigh p).msb, z := zeroFlag (p == 0#64) f, c := false
    v := productHigh p != (if (productLow p).msb then 0xFFFFFFFF#32 else 0#32) }

/-- Flags of MULU: V when MOF is not 0 (42_arithmetic.md R314). -/
def muluFlags (p : BitVec 64) (f : Flags) : Flags :=
  { f with n := (productHigh p).msb, z := zeroFlag (p == 0#64) f, c := false, v := productHigh p != 0#32 }

end Sys2Proof.Machine
end

