-- ==== Sys2Proof/Machine/Memory.lean ====
section
/-! DEFINITION. Sys2Proof/Machine/Memory.lean: physical memory as a list of bytes in canonical form, and `PHYS_MEM`
(20_memory.md R72, R81, R82, R84). -/

namespace Sys2Proof.Machine

/-- What an address that the list does not hold reads as. DESIGN CHOICE, unsafe: log 3. -/
def unlistedByte : Byte := 0#8

/-- The number of 31-bit physical addresses (20_memory.md R81). -/
def physSize : Nat := 0x80000000

/-- The byte at an address. -/
def memRead : List Host.Cell → Nat → Byte
  | [], _ => unlistedByte
  | (b, x) :: m, a => if a = b then x else memRead m a

/-- Store a byte, keeping the canonical form. -/
def memWrite : List Host.Cell → Nat → Byte → List Host.Cell
  | [], a, v => if v = unlistedByte then [] else [(a, v)]
  | (b, x) :: m, a, v =>
    if a < b then (if v = unlistedByte then (b, x) :: m else (a, v) :: (b, x) :: m)
    else if a = b then (if v = unlistedByte then m else (a, v) :: m)
    else (b, x) :: memWrite m a v

/-- Addresses rise strictly from `lo`, stay below 2^31, and no byte equals `unlistedByte`. -/
def memWfFrom : Nat → List Host.Cell → Bool
  | _, [] => true
  | lo, (a, v) :: m => decide (lo ≤ a) && decide (a < physSize) && v != unlistedByte && memWfFrom (a + 1) m

/-- The canonical form of memory. -/
def memWf (m : List Host.Cell) : Bool := memWfFrom 0 m

/-- The 31-bit index of byte `i` of a datum at physical address `pa`: bit 31 selects no other byte (20_memory.md R81; log 10). -/
def physIndex (pa : Word) (i : Nat) : Nat := (pa.toNat + i) % physSize

/-- `n` bytes at a physical address, little endian, zero-extended (20_memory.md R72). -/
def loadBytes (m : List Host.Cell) (pa : Word) : Nat → Word
  | 0 => 0#32
  | n + 1 => loadBytes m pa n ||| ((memRead m (physIndex pa n)).setWidth 32 <<< (8 * n))

/-- Store the low `n` bytes of `v` at a physical address, little endian (20_memory.md R72). -/
def storeBytes (m : List Host.Cell) (pa : Word) (v : Word) : Nat → List Host.Cell
  | 0 => m
  | n + 1 => memWrite (storeBytes m pa v n) (physIndex pa n) ((v >>> (8 * n)).setWidth 8)

/-- What is at a physical address, if anything (20_memory.md R84). -/
def regionKind (s : State) (a : Nat) : Option RegionKind :=
  (s.physMap.find? fun r => decide (r.base ≤ a) && decide (a < r.base + r.size)).map (·.kind)

/-- One byte that another agent writes. It reaches writable memory only: the rest of the address space has no byte to
change (20_memory.md R84, R89; log 43). -/
def outsideByte (s : State) (m : List Host.Cell) (c : Host.Cell) : List Host.Cell :=
  if decide (c.1 < physSize) && regionKind s c.1 == some .ram then memWrite m c.1 c.2 else m

/-- What another agent writes before this bus cycle, oldest first, and what it writes later (20_memory.md R89; log 43). -/
def popOutside (s : State) : State :=
  match s.outside with
  | [] => s
  | cells :: rest => { s with mem := cells.foldl (outsideByte s) s.mem, outside := rest }

/-- Why `n` bytes at a physical address cannot be accessed, if so: nothing exists there (U11), or a write would go to
read-only memory (log 4). -/
def accessRefusal (s : State) (write : Bool) (pa : Word) : Nat → Option Refusal
  | 0 => none
  | n + 1 =>
    match regionKind s (physIndex pa n) with
    | none => some (.unmappedPhysical (physIndex pa n))
    | some .ram => accessRefusal s write pa n
    | some .rom => if write then some (.romWrite (physIndex pa n)) else accessRefusal s write pa n

/-- The addresses of `n` bytes added to a list without repeats. -/
def markBytes (l : List Nat) (pa : Word) : Nat → List Nat
  | 0 => l
  | n + 1 => let l' := markBytes l pa n
             if l'.contains (physIndex pa n) then l' else physIndex pa n :: l'

/-- Note that the CPU has stored `n` bytes, through the cache or around it (20_memory.md R91; log 16). -/
def noteStore (st : Stores) (pa : Word) (n : Nat) : Stores :=
  if pa.msb then { st with fresh := markBytes st.fresh pa n, uncached := markBytes st.uncached pa n }
  else { st with fresh := markBytes st.fresh pa n, cached := markBytes st.cached pa n }

/-- Is an instruction byte at physical address `pa` outside the safe pattern: stored since the last transfer of control,
or stored or fetched through the cache (20_memory.md R91, U12). -/
def staleByte (st : Stores) (pa : Word) (i : Nat) : Bool :=
  st.fresh.contains (physIndex pa i) || st.cached.contains (physIndex pa i) ||
    (st.uncached.contains (physIndex pa i) && !pa.msb)

end Sys2Proof.Machine
end

