-- ==== Sys2Proof/Machine/Mmu.lean ====
section
/-! DEFINITION. Sys2Proof/Machine/Mmu.lean: address translation, MMU exceptions and the memory-mapped MMU registers
(20_memory.md R94 to R105, 10_state.md R52 to R60). -/

namespace Sys2Proof.Machine

/-! ## Translation -/

/-- Bits 16:13 of an address, the location within each TLB set (20_memory.md R97). -/
def tlbLocation (va : Word) : BitVec 4 := va.extractLsb' 13 4

/-- The TLB index of a set and a location (10_state.md R59, R64). -/
def tlbIndex (set : BitVec 2) (loc : BitVec 4) : BitVec 6 := set ++ loc

/-- One entry of the TLB. -/
def tlbEntry (m : Mmu) (i : BitVec 6) : TlbEntry := m.tlb[i.toNat]

/-- Does an entry, found at the location of `va`, hit (20_memory.md R98). -/
def entryHits (m : Mmu) (va : Word) (e : TlbEntry) : Bool :=
  (e.valid || m.invExcp) && va.extractLsb' 17 15 == e.vpn && (m.context == e.pageId || e.global)

/-- The sets whose entry hits (20_memory.md R97, R98). -/
def hittingSets (m : Mmu) (va : Word) : List (BitVec 2) :=
  [0#2, 1#2, 2#2, 3#2].filter fun set => entryHits m va (tlbEntry m (tlbIndex set (tlbLocation va)))

/-- What a TLB lookup gives. -/
inductive Lookup where
  /-- One entry hits and no exception condition holds (20_memory.md R100). -/
  | hit (pa : Word)
  /-- An exception: R_MMU_CAUSE, and for a non-miss single hit the index of the entry (20_memory.md R99, R102). -/
  | excp (cause : MmuCause) (index : Option (BitVec 6))
  /-- A miss (20_memory.md R99, R102). -/
  | miss (cause : MmuCause)
deriving DecidableEq, Repr

/-- R_MMU_CAUSE of an exception on `va` (20_memory.md R102). -/
def causeOf (m : Mmu) (va : Word) (write miss inv acc we : Bool) : MmuCause :=
  { vpn := va.extractLsb' 13 19, pageId := m.context, miss := miss, inv := inv, acc := acc, we := we, write := write }

/-- The lookup of 20_memory.md R97 to R100 and R104. -/
def lookup (m : Mmu) (mode : Mode) (va : Word) (write : Bool) : Lookup :=
  match hittingSets m va with
  | [] => .miss (causeOf m va write true false false false)
  | [set] =>
    let i := tlbIndex set (tlbLocation va)
    let e := tlbEntry m i
    let we := write && !e.we && m.weExcp
    let acc := mode == .user && e.kernel && m.accExcp
    let inv := !e.valid && m.invExcp
    if we || acc || inv then .excp (causeOf m va write false inv acc we) (some i)
    else .hit (e.pfn ++ va.extractLsb' 0 13)
  | _ => .excp (causeOf m va write false false false false) none

/-- Is an address linear-mapped: supervisor mode and the KSEG bit of its segment (20_memory.md R94 (2), R95; log 29). -/
def linearMapped (m : Mmu) (mode : Mode) (va : Word) : Bool :=
  mode == .supervisor && m.kseg.getLsbD (va.extractLsb' 28 4).toNat

/-- The base field of a segment (10_state.md R56). -/
def segmentBase (m : Mmu) (seg : BitVec 4) : BitVec 4 :=
  (m.kbaseHi ++ m.kbaseLo).extractLsb' (4 * seg.toNat) 4

/-- The physical address of a linear-mapped address (20_memory.md R96). -/
def linearAddress (m : Mmu) (va : Word) : Word :=
  segmentBase m (va.extractLsb' 28 4) ++ va.extractLsb' 0 28

/-- What translation gives. -/
inductive Translation where
  /-- A physical address; in test mode the state may have changed (20_memory.md R101). -/
  | ok (pa : Word) (s : State)
  /-- A bus fault (20_memory.md R99, R104). -/
  | fault (s : State)
  /-- The bus fault is gated off and no physical address is stated (20_memory.md R101, U13). -/
  | gated (s : State)

/-- The MMU registers after an exception (20_memory.md R102, R103; log 8, log 29). -/
def noteException (s : State) (va : Word) : Lookup → State
  | .hit _ => s
  | .excp cause (some i) => { s with mmu := { s.mmu with cause := cause, select := i } }
  | .excp cause none => { s with mmu := { s.mmu with cause := cause } }
  | .miss cause =>
    { s with
      mmu := { s.mmu with cause := cause, select := tlbIndex (Config.tlbRandom s.missCount) (tlbLocation va) }
      missCount := s.missCount + 1 }

/-- R_MMU_CAUSE alone updated, for test mode with the MMU off (20_memory.md R101, R102; log 29). -/
def noteCause (s : State) : Lookup → State
  | .hit _ => s
  | .excp cause _ => { s with mmu := { s.mmu with cause := cause } }
  | .miss cause => { s with mmu := { s.mmu with cause := cause } }

/-- Translation of the address of one bus cycle (20_memory.md R94 to R101). With the MMU off no segment is linear-mapped
(R94), and test mode looks up every address (R101). -/
def translate (va : Word) (write : Bool) (s : State) : Translation :=
  if s.mmu.enable then
    if linearMapped s.mmu s.mode va then .ok (linearAddress s.mmu va) s
    else match lookup s.mmu s.mode va write with
      | .hit pa => .ok pa s
      | l => if s.mmu.testMode then .gated (noteException s va l) else .fault (noteException s va l)
  else if s.mmu.testMode then .ok va (noteCause s (lookup s.mmu s.mode va write))
  else .ok va s

/-! ## The MMU registers as memory (10_state.md R52 to R60) -/

/-- The width of a field in bits. -/
def fieldWidth : MmuField → Nat
  | .kseg => 16
  | .kbaseLo => 32
  | .kbaseHi => 32
  | .context => 6
  | .causeVpn => 19
  | .causePageId => 6
  | .select => 6
  | .loPfn => 19
  | .hiVpn => 19
  | .hiPageId => 6
  | .invExcp | .accExcp | .weExcp | .enable => 1
  | .causeMiss | .causeInv | .causeAcc | .causeWe | .causeWrite => 1
  | .loGlobal | .loValid | .loKernel | .loWe | .testMode => 1

/-- A flag as a field value. -/
def bitField (b : Bool) : Word := if b then 1#32 else 0#32

/-- The value of a field. R_TLB_LO and R_TLB_HI show the entry that R_TLB_SELECT chooses; the low four vpn bits are its
location (10_state.md R59, R60, R64). -/
def fieldValue (m : Mmu) : MmuField → Word
  | .kseg => m.kseg.setWidth 32
  | .invExcp => bitField m.invExcp
  | .accExcp => bitField m.accExcp
  | .weExcp => bitField m.weExcp
  | .enable => bitField m.enable
  | .kbaseLo => m.kbaseLo
  | .kbaseHi => m.kbaseHi
  | .context => m.context.setWidth 32
  | .causeVpn => m.cause.vpn.setWidth 32
  | .causePageId => m.cause.pageId.setWidth 32
  | .causeMiss => bitField m.cause.miss
  | .causeInv => bitField m.cause.inv
  | .causeAcc => bitField m.cause.acc
  | .causeWe => bitField m.cause.we
  | .causeWrite => bitField m.cause.write
  | .select => m.select.setWidth 32
  | .loPfn => (tlbEntry m m.select).pfn.setWidth 32
  | .loGlobal => bitField (tlbEntry m m.select).global
  | .loValid => bitField (tlbEntry m m.select).valid
  | .loKernel => bitField (tlbEntry m m.select).kernel
  | .loWe => bitField (tlbEntry m m.select).we
  | .hiVpn => ((tlbEntry m m.select).vpn ++ m.select.extractLsb' 0 4).setWidth 32
  | .hiPageId => (tlbEntry m m.select).pageId.setWidth 32
  | .testMode => bitField m.testMode

/-- The selected TLB entry changed. -/
def updateSelected (m : Mmu) (g : TlbEntry → TlbEntry) : Mmu :=
  { m with tlb := m.tlb.set m.select.toNat (g (tlbEntry m m.select)) }

/-- A field written with the low bits of `v`. The fields of R_TLB_HI go to R_MMU_CAUSE (10_state.md R60); the fields of
R_MMU_CAUSE itself are not written this way (`mmuWrite` refuses). -/
def setField (m : Mmu) (v : Word) : MmuField → Mmu
  | .kseg => { m with kseg := v.setWidth 16 }
  | .invExcp => { m with invExcp := v.getLsbD 0 }
  | .accExcp => { m with accExcp := v.getLsbD 0 }
  | .weExcp => { m with weExcp := v.getLsbD 0 }
  | .enable => { m with enable := v.getLsbD 0 }
  | .kbaseLo => { m with kbaseLo := v }
  | .kbaseHi => { m with kbaseHi := v }
  | .context => { m with context := v.setWidth 6 }
  | .causeVpn | .causePageId | .causeMiss | .causeInv | .causeAcc | .causeWe | .causeWrite => m
  | .select => { m with select := v.setWidth 6 }
  | .loPfn => updateSelected m fun e => { e with pfn := v.setWidth 19 }
  | .loGlobal => updateSelected m fun e => { e with global := v.getLsbD 0 }
  | .loValid => updateSelected m fun e => { e with valid := v.getLsbD 0 }
  | .loKernel => updateSelected m fun e => { e with kernel := v.getLsbD 0 }
  | .loWe => updateSelected m fun e => { e with we := v.getLsbD 0 }
  | .hiVpn => { m with cause := { m.cause with vpn := v.setWidth 19 } }
  | .hiPageId => { m with cause := { m.cause with pageId := v.setWidth 6 } }
  | .testMode => { m with testMode := v.getLsbD 0 }

/-- Is a field one of R_TLB_LO, whose write stores the high part too (10_state.md R60). -/
def isTlbLo : MmuField → Bool
  | .loPfn | .loGlobal | .loValid | .loKernel | .loWe => true
  | _ => false

/-- Is a field one of R_MMU_CAUSE. -/
def isCause : MmuField → Bool
  | .causeVpn | .causePageId | .causeMiss | .causeInv | .causeAcc | .causeWe | .causeWrite => true
  | _ => false

/-- The high part of R_MMU_CAUSE stored into the selected entry (10_state.md R60, R64). -/
def commitHigh (m : Mmu) : Mmu :=
  updateSelected m fun e => { e with vpn := m.cause.vpn.extractLsb' 4 15, pageId := m.cause.pageId }

/-- A write to an MMU register (10_state.md R52 to R60). -/
def mmuWrite (w : MmuWindow) (v : Word) (m : Mmu) : Except Refusal Mmu :=
  if w.fields.any (fun p => isCause p.field) then .error .mmuCauseWrite
  else
    let m' := w.fields.foldl (fun m p => setField m (v >>> p.lo) p.field) m
    .ok (if w.fields.any (fun p => isTlbLo p.field) then commitHigh m' else m')

/-- The bits of a register that its fields cover. -/
def fieldMask32 (w : MmuWindow) : Word :=
  w.fields.foldl (fun acc p => acc ||| ((BitVec.allOnes 32 >>> (32 - fieldWidth p.field)) <<< p.lo)) 0#32

/-- The fields of a register, each at its place. -/
def fieldBits (w : MmuWindow) (m : Mmu) : Word :=
  w.fields.foldl (fun acc p => acc ||| (fieldValue m p.field <<< p.lo)) 0#32

/-- The low `n` bytes of a dword. -/
def lowBytes (n : Nat) (v : Word) : Word := v &&& (BitVec.allOnes 32 >>> (32 - 8 * n))

/-- A read of an MMU register: bits outside every field are a free value (10_state.md R52; log 6, log 9). -/
def mmuRead (w : MmuWindow) (s : State) : Word × State :=
  if lowBytes w.bytes (~~~fieldMask32 w) = 0#32 then (lowBytes w.bytes (fieldBits w s.mmu), s)
  else
    (lowBytes w.bytes (fieldBits w s.mmu ||| (Config.freeWord s.freeCount &&& ~~~fieldMask32 w)),
      { s with freeCount := s.freeCount + 1 })

/-- The MMU register that an access of `n` bytes names exactly. -/
def exactWindow (s : State) (pa : Word) (n : Nat) : Option MmuWindow :=
  s.mmuMap.find? fun w => w.addr == physIndex pa 0 && w.bytes == n

/-- Does an access of `n` bytes touch any MMU register. -/
def touchesWindow (s : State) (pa : Word) (n : Nat) : Bool :=
  s.mmuMap.any fun w => decide (w.addr < physIndex pa 0 + n) && decide (physIndex pa 0 < w.addr + w.bytes)

/-- The outcome of a physical access. -/
inductive Access where
  | ok (v : Word) (s : State)
  | refused (r : Refusal)

/-- A read of `n` bytes at a physical address: an MMU register or memory (20_memory.md R82 to R84, 10_state.md R52). -/
def physRead (pa : Word) (n : Nat) (s : State) : Access :=
  match exactWindow s pa n with
  | some w => .ok (mmuRead w s).1 (mmuRead w s).2
  | none =>
    if touchesWindow s pa n then .refused (.mmuPartialAccess (physIndex pa 0))
    else match accessRefusal s false pa n with
      | some r => .refused r
      | none => .ok (loadBytes s.mem pa n) s

/-- A write of `n` bytes at a physical address (20_memory.md R82 to R84, 10_state.md R52). -/
def physWrite (pa : Word) (n : Nat) (v : Word) (s : State) : Access :=
  match exactWindow s pa n with
  | some w => match mmuWrite w v s.mmu with
    | .ok m => .ok 0#32 { s with mmu := m }
    | .error r => .refused r
  | none =>
    if touchesWindow s pa n then .refused (.mmuPartialAccess (physIndex pa 0))
    else match accessRefusal s true pa n with
      | some r => .refused r
      | none => .ok 0#32 { s with mem := storeBytes s.mem pa v n, stores := noteStore s.stores pa n }

end Sys2Proof.Machine
end

