-- ==== Sys2Proof/Machine/Ops.lean ====
section
/-! DEFINITION. Sys2Proof/Machine/Ops.lean: the operations that meanings share: registers, bus cycles, taking an
exception, data and instruction accesses, and the end of an instruction with the return from exceptions
(10_state.md R20 to R51, 20_memory.md R73 to R77, 60_exceptions.md R450 to R487). -/

namespace Sys2Proof.Machine

/-! ## Registers -/

/-- PC as a register operand: the address of the word being executed plus 2 (10_state.md R29). For a word that RBF
restarts it comes from the record (60_exceptions.md R490 (3)), in a delay slot as log 46 says. -/
def pcPlus2 (s : State) : Word :=
  match s.resume with
  | some r => r.next
  | none => s.pc + 2#32

/-- The stack pointer of the current mode (10_state.md R24). -/
def activeSp (s : State) : Word := if s.mode = .user then s.usp else s.ssp

/-- `R[n]` (00_scope.md R11). -/
def readReg (r : RegNo) (s : State) : Word :=
  if h : r.toNat < 14 then s.regs[r.toNat]
  else if r = 14#4 then activeSp s
  else pcPlus2 s

/-- `R[n] <- v` for n up to 14 (00_scope.md R11). A write to PC is a transfer of control and goes through `Transfer`; here
it changes nothing. -/
def writeReg (r : RegNo) (v : Word) (s : State) : State :=
  if h : r.toNat < 14 then { s with regs := s.regs.set r.toNat v }
  else if r = 14#4 then (if s.mode = .user then { s with usp := v } else { s with ssp := v })
  else s

/-- The Interrupt Base Register, low half 0 (10_state.md R43). -/
def ibrValue (s : State) : Word := s.sregs.ibr ++ 0#16

/-- The size of a special register; P2, P3 and P6 have none (10_state.md R33, R49). -/
def sregSize : SReg → Option Size
  | .p0 => some .byte
  | .vr => some .byte
  | .p4 => some .word
  | .ccr => some .word
  | .p2 => none
  | .p3 => none
  | .p6 => none
  | .mof | .p8 | .ibr | .irp | .srp | .bar | .dccr | .brp | .usp => some .dword

/-- `P[n]`, zero-extended (10_state.md R33 to R48). P2, P3 and P6 are refused before they are read. -/
def readSreg (p : SReg) (s : State) : Word :=
  match p with
  | .p0 | .p4 | .p8 => 0#32
  | .vr => Config.versionRegister.setWidth 32
  | .p2 | .p3 | .p6 => 0#32
  | .ccr | .dccr => (ccrOfFlags s.flags).setWidth 32
  | .mof => s.sregs.mof
  | .ibr => ibrValue s
  | .irp => s.sregs.irp
  | .srp => s.sregs.srp
  | .bar => s.sregs.bar
  | .brp => s.sregs.brp
  | .usp => s.usp

/-- `P[n] <- v`, with the protection of user mode (41_data_transfer.md R246, R247, 10_state.md R66). -/
def writeSreg (p : SReg) (v : Word) (s : State) : State :=
  match p with
  | .p0 | .p4 | .p8 | .vr => s
  | .p2 | .p3 | .p6 => s
  | .ccr | .dccr => { s with flags := loadFlags s.mode v s.flags }
  | .mof => { s with sregs := { s.sregs with mof := v } }
  | .ibr => if s.mode = .supervisor then { s with sregs := { s.sregs with ibr := v.extractLsb' 16 16 } } else s
  | .irp => { s with sregs := { s.sregs with irp := v } }
  | .srp => { s with sregs := { s.sregs with srp := v } }
  | .bar => if s.mode = .supervisor then { s with sregs := { s.sregs with bar := v } } else s
  | .brp => { s with sregs := { s.sregs with brp := v } }
  | .usp => { s with usp := v }

/-! ## One bus cycle -/

/-- The BAR comparison of a cycle address: bits 31, 1 and 0 do not count (60_exceptions.md R464; log 22). -/
def noteBreakpoint (a : Word) (s : State) : State :=
  if s.flags.b && a &&& 0x7FFFFFFC#32 == s.sregs.bar &&& 0x7FFFFFFC#32 then { s with hwbreakPending := true } else s

/-- The answer of the single-step unit for this cycle, and the answers left (60_exceptions.md R468; log 7). -/
def popStep (s : State) : Bool × State :=
  match s.steps with
  | [] => (false, s)
  | b :: rest => (b, { s with steps := rest })

/-- The outcome of a bus cycle. -/
inductive Cycle where
  /-- Done: the value of a read, and the physical address. -/
  | ok (v : Word) (pa : Word) (s : State)
  /-- A bus fault, from the single-step unit or not (60_exceptions.md R466 to R468). -/
  | fault (single : Bool) (s : State)
  /-- The model gives no meaning to the access. -/
  | refused (r : Refusal)

/-- One bus cycle of `n` bytes at virtual address `a`, a write when a datum is given (20_memory.md R75, R76). Another agent's
writes come before it, never inside it: a split access has one before each cycle (20_memory.md R89). -/
def busCycle (datum : Option Word) (a : Word) (n : Nat) (s : State) : Cycle :=
  let step := popStep (popOutside (noteBreakpoint a s))
  match translate a datum.isSome step.2 with
  | .fault s' => .fault step.1 s'
  | .gated s' => if step.1 then .fault true s' else .refused .testModeFailedLookup
  | .ok pa s' =>
    if step.1 then .fault true s'
    else match (match datum with
        | none => physRead pa n s'
        | some v => physWrite pa n (lowBytes n v) s') with
      | .ok v s'' => .ok v pa s''
      | .refused r => .refused r

/-! ## Taking an exception (60_exceptions.md R450 to R470) -/

/-- The kind of a faulting bus cycle (60_exceptions.md R470). -/
inductive CycleKind where
  | fetch
  | read
  | write
  | vector
deriving DecidableEq, Repr

/-- `info` of a bus fault (60_exceptions.md R470). -/
structure BusFault where
  /-- What the cycle was. -/
  kind : CycleKind
  /-- The single-step unit signalled it. -/
  single : Bool
  /-- It was the second cycle of a split access. -/
  second : Bool
  /-- The address of the data entity in transfer. -/
  entity : Word
  /-- The datum of a write; the bytes of the first cycle for the second cycle of a read. -/
  data : Word
  /-- The instruction word in execution, for a data cycle. -/
  word : Half
  /-- The address of the next word to fetch in straight-line code. -/
  next : Word
deriving DecidableEq, Repr

/-- The bytes of a datum at `a` that lie before the next 4-byte boundary (20_memory.md R73). -/
def firstPart (a : Word) : Nat := 4 - a.toNat % 4

/-- Does an access of `n` bytes at `a` cross a 4-byte boundary (20_memory.md R73). -/
def crosses (a : Word) (n : Nat) : Bool := decide (4 < a.toNat % 4 + n)

/-- The execution state field of a record (60_exceptions.md R483, R484). A vector read belongs to no instruction: its
bits 5 to 1 are 0 (R469; log 23). -/
def recordState (b : BusFault) (s : State) : Half :=
  let inInstr := b.kind != .vector
  0#7 ++ BitVec.ofBool s.flags.f ++ BitVec.ofBool s.flags.u ++ BitVec.ofBool s.flags.x ++
    BitVec.ofBool (inInstr && b.second) ++ BitVec.ofBool (b.kind == .read || b.kind == .write) ++
    BitVec.ofBool (inInstr && s.delay.any (·.ret)) ++ BitVec.ofBool (inInstr && s.delay.isSome) ++
    BitVec.ofBool (inInstr && s.prefixAddr.isSome) ++ BitVec.ofBool (b.kind == .vector)

/-- The PC field of a record (60_exceptions.md R482; log 23). -/
def recordPc (b : BusFault) (s : State) : Word :=
  if b.kind = .vector then s.pc
  else match s.delay with
    | some d => d.target
    | none => b.next

/-- The data field of a record (60_exceptions.md R487; log 9, log 23). -/
def recordData (b : BusFault) (s : State) : Word :=
  match b.kind with
  | .fetch => s.prefixAddr.getD (Config.freeWord s.freeCount)
  | .read =>
    if b.second then
      lowBytes (firstPart b.entity) b.data |||
        (Config.freeWord s.freeCount &&& ~~~(lowBytes (firstPart b.entity) (BitVec.allOnes 32)))
    else Config.freeWord s.freeCount
  | .write => b.data
  | .vector => Config.freeWord s.freeCount

/-- The CPU status record of a bus fault (60_exceptions.md R481 to R487; log 9 for its arbitrary values). -/
def statusRecord (b : BusFault) (s : State) : StatusRecord :=
  { pc := recordPc b s
    state := recordState b s
    instr := if b.kind = .read ∨ b.kind = .write then b.word else Config.freeHalf s.freeCount
    addr := b.entity
    data := recordData b s }

/-- What takes the CPU to a vector (60_exceptions.md R450; BREAK reads no vector and is `execBreakN`). -/
inductive Event where
  | interrupt (v : Byte)
  | nmi
  | hwBreak
  | busFault (b : BusFault)
deriving DecidableEq, Repr

/-- The transition to supervisor mode (60_exceptions.md R455). -/
def enterSupervisor (s : State) : State :=
  { s with mode := .supervisor, flags := { s.flags with u := s.mode == .user, f := true } }

/-- What the INTA cycle does (60_exceptions.md R459, R462, R465, R466). -/
def acknowledge (e : Event) (s : State) : State :=
  match e with
  | .interrupt _ => { enterSupervisor s with sregs := { s.sregs with irp := s.pc } }
  | .nmi =>
    { enterSupervisor s with
      sregs := { s.sregs with brp := s.pc }
      flags := { (enterSupervisor s).flags with m := false } }
  | .hwBreak => { enterSupervisor s with sregs := { s.sregs with brp := s.pc }, hwbreakPending := false }
  | .busFault b => { enterSupervisor s with hidden := statusRecord b s, freeCount := s.freeCount + 1 }

/-- The vector number (60_exceptions.md R454). -/
def eventVector : Event → Byte
  | .interrupt v => v
  | .nmi => 0x21#8
  | .hwBreak => 0x20#8
  | .busFault b => if b.single then 0x20#8 else 0x2E#8

/-- `IBR + 4*v` (60_exceptions.md R459). -/
def vectorAddress (v : Byte) (s : State) : Word := s.sregs.ibr ++ (v.setWidth 16 <<< 2)

/-- The start of a handler (60_exceptions.md R459, R466): control goes to the address in the vector, nothing is pending,
the inhibit window is open. An odd address is U3. -/
def enterHandler (target : Word) (s : State) : Host.Outcome State Fault Refusal :=
  if target.getLsbD 0 then .fault (.oddTarget target)
  else .next { s with
    pc := target, delay := none, prefixAddr := none, inhibit := true, prefetch := none, resume := none
    stores := { s.stores with fresh := [] } }

/-- A bus fault in the vector read at `a` (60_exceptions.md R469). -/
def vectorFault (a : Word) (single : Bool) : BusFault :=
  { kind := .vector, single := single, second := false, entity := a, data := 0#32, word := 0#16, next := 0#32 }

/-- Taking an exception: acknowledge, read the vector, start the handler. A bus fault in the vector read starts a new
bus-fault sequence (60_exceptions.md R469). The number bounds these; when it is used up the sequence repeats for ever
(R469, R493; log 20). -/
def takeEvent : Nat → Event → State → Host.Outcome State Fault Refusal
  | 0, _, _ => .fault .busFaultLoop
  | n + 1, e, s =>
    let s' := acknowledge e s
    let a := vectorAddress (eventVector e) s'
    match busCycle none a 4 s' with
    | .ok target _ s'' => enterHandler target s''
    | .fault single s'' => takeEvent n (.busFault (vectorFault a single)) s''
    | .refused r => .refused r

/-- Taking an exception (60_exceptions.md R459, R462, R465, R466). Once the answers of the single-step unit are used up, a
bus-fault vector read that faults twice faults for ever: nothing that the translation reads has changed. -/
def takeException (e : Event) (s : State) : Host.Outcome State Fault Refusal :=
  takeEvent (s.steps.length + 3) e s

/-! ## Parts of an instruction -/

/-- The outcome of a part of an instruction: a value and the state so far, or the end of the step (a bus fault taken, a
fault, a refusal). -/
inductive Act (α : Type) where
  | done (a : α) (s : State)
  | stop (o : Host.Outcome State Fault Refusal)

/-- One part after another. -/
def Act.andThen {α β : Type} (x : Act α) (k : α → State → Act β) : Act β :=
  match x with
  | .done a s => k a s
  | .stop o => .stop o

/-- The last part of an instruction. -/
def Act.finish {α : Type} (x : Act α) (k : α → State → Host.Outcome State Fault Refusal) :
    Host.Outcome State Fault Refusal :=
  match x with
  | .done a s => k a s
  | .stop o => o

/-- What a bus fault in a data cycle needs to know of the instruction (60_exceptions.md R482 (c), R485). -/
structure Ctx where
  /-- The instruction word. -/
  word : Half
  /-- The address after the instruction and its in-line data. -/
  endPc : Word
  /-- MOVEM from memory has already loaded PC: a bus fault now is U6 (e). -/
  pcLoaded : Bool := false
deriving DecidableEq, Repr

/-- A bus fault in a data cycle of an instruction (60_exceptions.md R470, R485 to R487). -/
def dataFault (c : Ctx) (kind : CycleKind) (entity : Word) (second : Bool) (data : Word) (single : Bool) : BusFault :=
  { kind := kind, single := single, second := second, entity := entity, data := data, word := c.word, next := c.endPc }

/-- `raise BusFault(info)` in a data cycle (60_exceptions.md R466). -/
def raiseData {α : Type} (c : Ctx) (b : BusFault) (s : State) : Act α :=
  if c.pcLoaded then .stop (.refused .movemPcPartlyLoaded) else .stop (takeException (.busFault b) s)

/-- A bus fault in the fetch of the instruction word (60_exceptions.md R470, R482 (a), R486). -/
def fetchFault (s : State) (single : Bool) : BusFault :=
  { kind := .fetch, single := single, second := false, entity := s.pc, data := 0#32, word := 0#16, next := pcPlus2 s }

/-- The data cycle being restarted, if the word is one that RBF restarts (60_exceptions.md R490). -/
def restartCycle (s : State) : Option RestartCycle := s.resume.bind (·.cycle)

/-- One read cycle of an instruction's data (20_memory.md R75, 60_exceptions.md R466, R470). -/
def readCycle (c : Ctx) (entity : Word) (second : Bool) (first : Word) (a : Word) (n : Nat) (s : State) : Act Word :=
  match busCycle none a n s with
  | .ok v _ s' => .done v s'
  | .fault single s' => raiseData c (dataFault c .read entity second first single) s'
  | .refused r => .stop (.refused r)

/-- The second cycle of a split read: the bytes after the first `k`, joined to the first ones. -/
def readSecond (c : Ctx) (a : Word) (n : Nat) (first : Word) (s : State) : Act Word :=
  let k := firstPart a
  (readCycle c a true first (a + BitVec.ofNat 32 k) (n - k) s).andThen fun v s' => .done (first ||| (v <<< (8 * k))) s'

/-- `MemRead(a, n)` (20_memory.md R73, R75); a restarted access may begin with its second cycle (60_exceptions.md R490). -/
def dataRead (c : Ctx) (restart : Option RestartCycle) (a : Word) (n : Nat) (s : State) : Act Word :=
  if crosses a n then
    match restart with
    | some ⟨_, _, d, true⟩ => readSecond c a n (lowBytes (firstPart a) d) s
    | _ => (readCycle c a false 0#32 a (firstPart a) s).andThen fun first s' => readSecond c a n first s'
  else readCycle c a false 0#32 a n s

/-- One write cycle: `v` holds the bytes of the cycle, `datum` the whole datum for the record (60_exceptions.md R487). -/
def writeCycle (c : Ctx) (entity : Word) (second : Bool) (datum : Word) (a : Word) (n : Nat) (v : Word) (s : State) :
    Act Unit :=
  match busCycle (some v) a n s with
  | .ok _ _ s' => .done () s'
  | .fault single s' => raiseData c (dataFault c .write entity second datum single) s'
  | .refused r => .stop (.refused r)

/-- The second cycle of a split write. -/
def writeSecond (c : Ctx) (a : Word) (n : Nat) (datum : Word) (s : State) : Act Unit :=
  let k := firstPart a
  writeCycle c a true datum (a + BitVec.ofNat 32 k) (n - k) (datum >>> (8 * k)) s

/-- `MemWrite(a, n, v)` without the conditional test (20_memory.md R73, R76). A restarted write takes its datum from the
record and may begin with its second cycle (60_exceptions.md R490). -/
def dataWrite (c : Ctx) (restart : Option RestartCycle) (a : Word) (n : Nat) (v : Word) (s : State) : Act Unit :=
  let datum := lowBytes n (match restart with
    | some r => r.data
    | none => v)
  if crosses a n then
    match restart with
    | some ⟨_, _, _, true⟩ => writeSecond c a n datum s
    | _ => (writeCycle c a false datum a (firstPart a) datum s).andThen fun _ s' => writeSecond c a n datum s'
  else writeCycle c a false datum a n datum s

/-- Is a memory write suppressed (20_memory.md R76). -/
def storeSuppressed (s : State) : Bool := s.flags.f && s.flags.x

/-- P set by a suppressed write (20_memory.md R76; log 30). -/
def noteSuppressed (s : State) : State := { s with flags := { s.flags with p := true } }

/-! ## Instruction fetch -/

/-- The check of 20_memory.md R91 and U12 on a fetched halfword. -/
def staleFetch (s : State) (pa : Word) : Option Refusal :=
  if staleByte s.stores pa 0 then some (.selfModifiedCode (physIndex pa 0))
  else if staleByte s.stores pa 1 then some (.selfModifiedCode (physIndex pa 1))
  else none

/-- The halfword of a finished fetch, after the check. -/
def fetched (h : Half) (pa : Word) (s : State) : Act Half :=
  match staleFetch s pa with
  | some r => .stop (.refused r)
  | none => .done h s

/-- A fetch that needs a bus cycle: the dword cycle at a 4-byte-aligned address fills the prefetch register (20_memory.md
R77). `onFault` says what a bus fault does. -/
def fetchCycle (onFault : Bool → State → Act Half) (a : Word) (s : State) : Act Half :=
  match busCycle none a (if a.getLsbD 1 then 2 else 4) s with
  | .ok v pa s' =>
    fetched (v.setWidth 16) pa { s' with
      prefetch := if a.getLsbD 1 then none
        else some { addr := a + 2#32, phys := pa + 2#32, half := v.extractLsb' 16 16 } }
  | .fault single s' => onFault single s'
  | .refused r => .stop (.refused r)

/-- `Fetch16(a)` (20_memory.md R77): from the prefetch register, or by a bus cycle. An odd address is U3. -/
def fetchHalf (onFault : Bool → State → Act Half) (a : Word) (s : State) : Act Half :=
  if a.getLsbD 0 then .stop (.fault (.oddTarget a))
  else match s.prefetch with
  | some p => if p.addr = a then fetched p.half p.phys { s with prefetch := none } else fetchCycle onFault a s
  | none => fetchCycle onFault a s

/-- The fetch of the instruction word at `pc` (00_scope.md R16). -/
def fetchInstr (s : State) : Act Half :=
  fetchHalf (fun single s' => .stop (takeException (.busFault (fetchFault s single)) s')) s.pc s

/-- One halfword of in-line data: read by `Fetch16`, recorded as a data cycle (40_addressing.md R208, U10; log 15). -/
def inlineHalf (c : Ctx) (entity : Word) (second : Bool) (first : Word) (a : Word) (s : State) : Act Half :=
  fetchHalf (fun single s' => raiseData c (dataFault c .read entity second first single) s') a s

/-- The second halfword of an in-line dword. -/
def inlineSecond (c : Ctx) (a : Word) (first : Word) (s : State) : Act Word :=
  (inlineHalf c a true first (a + 2#32) s).andThen fun hi s' => .done (first ||| (hi.setWidth 32 <<< 16)) s'

/-- An in-line operand of `n` bytes at `a` (40_addressing.md R208). -/
def inlineRead (c : Ctx) (restart : Option RestartCycle) (a : Word) (n : Nat) (s : State) : Act Word :=
  if n = 4 then
    match restart with
    | some ⟨_, _, d, true⟩ => inlineSecond c a (lowBytes 2 d) s
    | _ => (inlineHalf c a false 0#32 a s).andThen fun lo s' => inlineSecond c a (lo.setWidth 32) s'
  else (inlineHalf c a false 0#32 a s).andThen fun h s' => .done (lowBytes n (h.setWidth 32)) s'

/-! ## The end of an instruction, and the return from exceptions -/

/-- What an instruction does to the flow of control (10_state.md R30, R31). -/
inductive Transfer where
  /-- Nothing: the next word follows. -/
  | none
  /-- `pc <- t`. -/
  | jump (t : Word)
  /-- `delayed pc <- t`, with the mark of RETI and RETB. -/
  | delayed (t : Word) (ret : Bool)
deriving DecidableEq, Repr

/-- How an instruction ends. -/
structure Ending where
  /-- The address after the instruction. -/
  seq : Word
  /-- Its transfer of control. -/
  transfer : Transfer
  /-- It opens the inhibit window (10_state.md R50). -/
  window : Bool
  /-- X is not cleared: SETF with X in its list, RBF (10_state.md R51). -/
  keepX : Bool
deriving DecidableEq, Repr

/-- A transfer of control: the prefetch register is not used for the next fetch (20_memory.md R77), stores before it count
as before it (R91). An odd target is U3. -/
def jumpTo (t : Word) (s : State) : Host.Outcome State Fault Refusal :=
  if t.getLsbD 0 then .fault (.oddTarget t)
  else .next { s with pc := t, prefetch := none, stores := { s.stores with fresh := [] } }

/-- The end of a delay slot: control goes to the target, and after RETI or RETB the mode follows U as the slot left it
(10_state.md R51 (2), 45_jump_branch.md R425). -/
def endSlot (d : Delay) (s : State) : Host.Outcome State Fault Refusal :=
  jumpTo d.target { s with delay := none, mode := if d.ret && s.flags.u then .user else s.mode }

/-- X, the inhibit bit and the cells that one instruction hands to the next (10_state.md R51 (1), (3), (4)). -/
def settle (e : Ending) (s : State) : State :=
  { s with
    flags := { s.flags with x := s.flags.x && e.keepX }
    inhibit := e.window, prefixAddr := none, resume := none }

/-- End-of-instruction bookkeeping (10_state.md R51). A transfer in the slot of a taken transfer is U14. -/
def complete (e : Ending) (s : State) : Host.Outcome State Fault Refusal :=
  match s.delay with
  | some d =>
    match e.transfer with
    | .none => endSlot d (settle e s)
    | _ => .refused .forbiddenInDelaySlot
  | none =>
    match e.transfer with
    | .none => .next { settle e s with pc := e.seq }
    | .jump t => jumpTo t (settle e s)
    | .delayed t ret => .next { settle e s with pc := e.seq, delay := some { target := t, ret := ret } }

/-- The end of a prefix word: its address is handed over, X and the flags stay, the window is open (10_state.md R51, R63,
R67). -/
def completePrefix (seq addr : Word) (s : State) : Host.Outcome State Fault Refusal :=
  .next { s with pc := seq, prefixAddr := some addr, inhibit := true, resume := none }

/-- The end of an ordinary instruction that clears X. -/
def ending (seq : Word) (t : Transfer) (window : Bool) : Ending :=
  { seq := seq, transfer := t, window := window, keepX := false }

end Sys2Proof.Machine
end

