-- ==== Sys2Proof/Machine/Operands.lean ====
section
/-! DEFINITION. Sys2Proof/Machine/Operands.lean: every operand form of a basic word (40_addressing.md R200 to R216) and the
shapes that the families of instructions share. -/

namespace Sys2Proof.Machine

/-! ## Memory operands -/

/-- Is the operand in line: autoincrement mode with PC and no pending prefix (40_addressing.md R208). -/
def isInline (md : Bool) (r : RegNo) (s : State) : Bool := md && r == 15#4 && s.prefixAddr.isNone

/-- How far PC steps over an in-line operand of `n` bytes: a byte occupies a whole word (40_addressing.md R208). -/
def inlineStep (n : Nat) : Nat := if n = 1 then 2 else n

/-- The address after the instruction (10_state.md R28). -/
def endAddress (md : Bool) (r : RegNo) (n : Nat) (s : State) : Word :=
  if isInline md r s then pcPlus2 s + BitVec.ofNat 32 (inlineStep n) else pcPlus2 s

/-- The address of the memory operand: that of the restarted cycle, the pending prefix address, or the register
(40_addressing.md R203 to R207, 60_exceptions.md R490). -/
def operandAddress (r : RegNo) (s : State) : Word :=
  match restartCycle s with
  | some c => c.addr
  | none => s.prefixAddr.getD (readReg r s)

/-- The address-register update: autoincrement by `n`, or the assign of a prefixed word (40_addressing.md R204, R215). -/
def updateAddress (md : Bool) (r : RegNo) (n : Nat) (a : Word) (s : State) : State :=
  if md then (if s.prefixAddr.isSome then writeReg r a s else writeReg r (a + BitVec.ofNat 32 n) s) else s

/-- Memory operands without a meaning: a prefixed or an in-line operand in the slot of a taken transfer (U14), assigning
to PC (U6 c). -/
def operandRefusal (md : Bool) (r : RegNo) (s : State) : Option Refusal :=
  if s.delay.isSome && (s.prefixAddr.isSome || isInline md r s) then some .forbiddenInDelaySlot
  else if md && r == 15#4 && s.prefixAddr.isSome then some .assignToPc
  else none

/-- Read `n` bytes, in line or from memory. -/
def readOperand (c : Ctx) (inLine : Bool) (restart : Option RestartCycle) (a : Word) (n : Nat) (s : State) : Act Word :=
  if inLine then inlineRead c restart a n s else dataRead c restart a n s

/-- `Src(w, n)` for the memory modes (40_addressing.md R206): the access, then the address-register update (R205). -/
def loadOperand (c : Ctx) (md : Bool) (r : RegNo) (n : Nat) (s : State) : Act Word :=
  match operandRefusal md r s with
  | some x => .stop (.refused x)
  | none =>
    (readOperand c (isInline md r s) (restartCycle s) (operandAddress r s) n s).andThen fun v s' =>
      .done v (updateAddress md r n (operandAddress r s) s')

/-- `Store(w, n, v)` (40_addressing.md R207): the conditional write, then the address-register update. -/
def storeOperand (c : Ctx) (md : Bool) (r : RegNo) (n : Nat) (v : Word) (s : State) : Act Unit :=
  match operandRefusal md r s with
  | some x => .stop (.refused x)
  | none =>
    (if storeSuppressed s then .done () (noteSuppressed s)
     else dataWrite c (restartCycle s) (operandAddress r s) n v s).andThen fun _ s' =>
      .done () (updateAddress md r n (operandAddress r s) s')

/-- What a memory form names, for RBF (60_exceptions.md R488, R490). -/
structure MemoryForm where
  /-- Bit 10 of the word. -/
  md : Bool
  /-- The Operand1 register. -/
  reg : RegNo
  /-- Bytes of one datum. -/
  unit : Nat
  /-- Bytes of the whole operand. -/
  bytes : Nat
deriving DecidableEq, Repr

/-! ## Two-operand instructions -/

/-- What an instruction does with its destination register. -/
inductive Dest where
  | readWrite
  | write
  | read
  | none
deriving DecidableEq, Repr

/-- Does it write the register. -/
def Dest.writes : Dest → Bool
  | .readWrite | .write => true
  | .read | .none => false

/-- Does it read the register. -/
def Dest.reads : Dest → Bool
  | .readWrite | .read => true
  | .write | .none => false

/-- The shape of a two-operand instruction. -/
structure AluForm where
  /-- Size of the source operand. -/
  access : Size
  /-- The source is sign extended from that size. -/
  signed : Bool
  /-- Size of the operation. -/
  size : Size
  /-- Use of the destination register. -/
  dest : Dest
  /-- PC may be the destination (10_state.md R30). -/
  pcDest : Bool
  /-- There is a 3-operand form (30_encoding.md R138). -/
  threeOp : Bool
  /-- It opens the inhibit window (10_state.md R50). -/
  window : Bool
deriving DecidableEq, Repr

/-- The source operand at the operation size. -/
def AluForm.source (f : AluForm) (v : Word) : Word := if f.signed then sextSize f.access v else truncSize f.access v

/-- Write the result and the flags and end the instruction. A write to PC is a jump; a partial one replaces the low bits of
the PC value read (10_state.md R22, R30). -/
def writeBack (f : AluForm) (rd : RegNo) (r : Word) (fl : Flags) (seq : Word) (s : State) :
    Host.Outcome State Fault Refusal :=
  if f.dest.writes then
    if rd = 15#4 then
      complete (ending seq (.jump (mergeSize f.size (pcPlus2 s) r)) f.window) { s with flags := fl }
    else
      complete (ending seq .none f.window)
        { writeReg rd (mergeSize f.size (readReg rd s) r) s with flags := fl }
  else complete (ending seq .none f.window) { s with flags := fl }

/-- Destinations without a meaning: PC where it is not supported (U2), PC written in the slot of a taken transfer (U14). -/
def destRefusal (f : AluForm) (rd : RegNo) (s : State) : Option Refusal :=
  if f.dest.writes && rd == 15#4 then
    if !f.pcDest then some .pcDestination
    else if s.delay.isSome then some .forbiddenInDelaySlot
    else none
  else none

/-- A two-operand instruction with the source value given: quick and register modes (40_addressing.md R201, R202). A
pending prefix is U5. -/
def aluCore (f : AluForm) (g : Calc) (d : RegNo) (src : Word) (s : State) : Host.Outcome State Fault Refusal :=
  if s.prefixAddr.isSome then .refused .prefixUnusable
  else match destRefusal f d s with
  | some x => .refused x
  | none =>
    let r := g s.flags (truncSize f.size (readReg d s)) src
    writeBack f d r.1 r.2 (pcPlus2 s) s

/-- Register mode. -/
def aluReg (f : AluForm) (g : Calc) (d r : RegNo) (s : State) : Host.Outcome State Fault Refusal :=
  aluCore f g d (f.source (readReg r s)) s

/-- The destination of a memory form: Operand1 in the 3-operand form, else Operand2 (42_arithmetic.md R282). -/
def memoryDest (f : AluForm) (d : RegNo) (md : Bool) (r : RegNo) (s : State) : RegNo :=
  if f.threeOp && s.prefixAddr.isSome && !md then r else d

/-- Memory forms without a meaning, beside `operandRefusal`: U7, U2, U14 and U9. -/
def memoryRefusal (f : AluForm) (d : RegNo) (md : Bool) (r : RegNo) (s : State) : Option Refusal :=
  if f.dest.writes && !f.threeOp && s.prefixAddr.isSome && !md && r != d then some .operand1Differs
  else if f.dest.writes && !f.pcDest && d == 15#4 then some .pcDestination
  else if f.dest.reads && d == 15#4 && isInline md r s then some .pcReadWithInlineData
  else destRefusal f (memoryDest f d md r s) s

/-- Memory modes: the destination operand is read before the access (42_arithmetic.md R282, 40_addressing.md R205). -/
def aluMem (f : AluForm) (g : Calc) (word : Half) (d : RegNo) (md : Bool) (r : RegNo) (s : State) :
    Host.Outcome State Fault Refusal :=
  match memoryRefusal f d md r s with
  | some x => .refused x
  | none =>
    let seq := endAddress md r (sizeBytes f.access) s
    let dv := truncSize f.size (readReg d s)
    (loadOperand { word := word, endPc := seq } md r (sizeBytes f.access) s).finish fun v s' =>
      let x := g s.flags dv (f.source v)
      writeBack f (memoryDest f d md r s) x.1 x.2 seq s'

/-! ## Shapes of the families -/

/-- `.m` instructions with a 3-operand form: ADD, SUB, AND, OR. -/
def formSized (m : Size) : AluForm :=
  { access := m, signed := false, size := m, dest := .readWrite, pcDest := true, threeOp := true, window := false }

/-- `.z` instructions with zero extension: ADDU, SUBU. -/
def formUnsigned (z : Size) : AluForm := { formSized .dword with access := z }

/-- `.z` instructions with sign extension: ADDS, SUBS. -/
def formSigned (z : Size) : AluForm := { formSized .dword with access := z, signed := true }

/-- BOUND: bound of size m, index and result dword, PC not allowed. -/
def formBound (m : Size) : AluForm := { formSized .dword with access := m, pcDest := false }

/-- CMP, CMPQ. -/
def formCompare (m : Size) : AluForm := { formSized m with dest := .read, threeOp := false }

/-- CMPU. -/
def formCompareUnsigned (z : Size) : AluForm := { formCompare .dword with access := z }

/-- CMPS. -/
def formCompareSigned (z : Size) : AluForm := { formCompare .dword with access := z, signed := true }

/-- MOVE to a register, MOVEQ, ABS, LZ: the destination is only written. -/
def formMove (m : Size) : AluForm := { formSized m with dest := .write, threeOp := false }

/-- MOVU. -/
def formMoveUnsigned (z : Size) : AluForm := { formMove .dword with access := z }

/-- MOVS. -/
def formMoveSigned (z : Size) : AluForm := { formMove .dword with access := z, signed := true }

/-- TEST: no register is written. -/
def formTest (m : Size) : AluForm := { formSized m with dest := .none, threeOp := false }

/-- Register and quick forms that read and write their destination, PC allowed: ADDQ, ANDQ, ASR, XOR and others. -/
def formUpdate (m : Size) : AluForm := { formSized m with threeOp := false }

/-- The same with PC not allowed: ADDI, DSTEP, LSL, LSR, MSTEP, SWAP. -/
def formUpdateNoPc (m : Size) : AluForm := { formUpdate m with pcDest := false }

/-- NEG: the destination is only written, PC not allowed. -/
def formNeg (m : Size) : AluForm := { formMove m with pcDest := false }

/-- Scc: the destination is only written, PC not allowed, the window opens. -/
def formScc : AluForm := { formMove .dword with pcDest := false, window := true }

/-- MULS and MULU: 32 bits to Rd, 32 bits to MOF (42_arithmetic.md R313, R314). A pending prefix is U5, PC as Rd U2. -/
def mulReg (product : Word → Word → BitVec 64) (flags : BitVec 64 → Flags → Flags) (d r : RegNo) (s : State) :
    Host.Outcome State Fault Refusal :=
  if s.prefixAddr.isSome then .refused .prefixUnusable
  else if d = 15#4 then .refused .pcDestination
  else
    let p := product (readReg r s) (readReg d s)
    let s' := writeReg d (productLow p) s
    complete (ending (pcPlus2 s) .none false)
      { s' with sregs := { s'.sregs with mof := productHigh p }, flags := flags p s.flags }

end Sys2Proof.Machine
end

