-- ==== Sys2Proof/Machine/Shapes.lean ====
section
/-! DEFINITION. Sys2Proof/Machine/Shapes.lean: the shared operations behind the moves of special registers, MOVEM, the
branches and jumps, the prefix words, SBFS and RBF (41_data_transfer.md, 45_jump_branch.md, 40_addressing.md R209 to R214,
60_exceptions.md R490). -/

namespace Sys2Proof.Machine

/-! ## Moves to and from special registers (41_data_transfer.md R240, R246 to R249) -/

/-- MOVE Rs,Pd. P2, P3, P6 are U4, a pending prefix U5. -/
def moveToSregReg (p : SReg) (r : RegNo) (s : State) : Host.Outcome State Fault Refusal :=
  if s.prefixAddr.isSome then .refused .prefixUnusable
  else match sregSize p with
  | none => .refused (.undefinedSpecialRegister p)
  | some z => complete (ending (pcPlus2 s) .none true) (writeSreg p (truncSize z (readReg r s)) s)

/-- MOVE [ ],Pd. -/
def moveToSregMem (word : Half) (p : SReg) (md : Bool) (r : RegNo) (s : State) : Host.Outcome State Fault Refusal :=
  match sregSize p with
  | none => .refused (.undefinedSpecialRegister p)
  | some z =>
    let seq := endAddress md r (sizeBytes z) s
    (loadOperand { word := word, endPc := seq } md r (sizeBytes z) s).finish fun v s' =>
      complete (ending seq .none true) (writeSreg p v s')

/-- The special registers whose move to PC may change the mode (45_jump_branch.md R425). -/
def isModeReturn (p : SReg) : Bool := p == .irp || p == .brp

/-- MOVE Ps,Rd. To PC it is a delayed jump (R249); of IRP or BRP it carries the RETI/RETB mark, and in the slot of a taken
transfer it is not performed (45_jump_branch.md R425, R426; log 28). Others to PC in such a slot are U14. -/
def moveFromSregReg (p : SReg) (d : RegNo) (s : State) : Host.Outcome State Fault Refusal :=
  if s.prefixAddr.isSome then .refused .prefixUnusable
  else match sregSize p with
  | none => .refused (.undefinedSpecialRegister p)
  | some z =>
    if d = 15#4 then
      if s.delay.isSome && isModeReturn p then complete (ending (pcPlus2 s) .none true) s
      else complete
        (ending (pcPlus2 s) (.delayed (mergeSize z (pcPlus2 s) (readSreg p s)) (isModeReturn p)) true) s
    else complete (ending (pcPlus2 s) .none true) (writeReg d (mergeSize z (readReg d s) (readSreg p s)) s)

/-- MOVE Ps,[ ]. -/
def moveFromSregMem (word : Half) (p : SReg) (md : Bool) (d : RegNo) (s : State) : Host.Outcome State Fault Refusal :=
  match sregSize p with
  | none => .refused (.undefinedSpecialRegister p)
  | some z =>
    let seq := endAddress md d (sizeBytes z) s
    (storeOperand { word := word, endPc := seq } md d (sizeBytes z) (readSreg p s) s).finish fun _ s' =>
      complete (ending seq .none true) s'

/-- MOVE.m Rs,[ ]: the value is read before the address register changes (41_data_transfer.md R245). MOVE.m PC,[PC+] stores
the address of the word plus 2: 10_state.md R29 gives PC for words without in-line data, U9 is about words that fetch it.
DESIGN CHOICE, unsafe: log 44. -/
def storeReg (m : Size) (word : Half) (r : RegNo) (md : Bool) (d : RegNo) (s : State) :
    Host.Outcome State Fault Refusal :=
  let seq := endAddress md d (sizeBytes m) s
  (storeOperand { word := word, endPc := seq } md d (sizeBytes m) (readReg r s) s).finish fun _ s' =>
    complete (ending seq .none false) s'

/-! ## MOVEM (41_data_transfer.md R253 to R255) -/

/-- The instruction field of a record: bits 15:12 name the register in transfer (60_exceptions.md R485). -/
def movemWord (word : Half) (n : Nat) : Half := BitVec.ofNat 4 n ++ word.extractLsb' 0 12

/-- Load R(n-1) down to R0 from ascending dwords. Only the first cycle can be a restarted one. -/
def loadRegs (c : Ctx) (inLine : Bool) : Nat → Option RestartCycle → Word → State → Act Unit
  | 0, _, _, s => .done () s
  | n + 1, restart, a, s =>
    (readOperand { c with word := movemWord c.word n } inLine restart a 4 s).andThen fun v s' =>
      loadRegs c inLine n none (a + 4#32) (writeReg (BitVec.ofNat 4 n) v s')

/-- Store R(n-1) down to R0 to ascending dwords. MOVEM PC,[PC+] stores the address of the word plus 2 for PC, where
10_state.md R29 and U9 say nothing. DESIGN CHOICE, unsafe: log 44. -/
def storeRegs (c : Ctx) : Nat → Option RestartCycle → Word → State → Act Unit
  | 0, _, _, s => .done () s
  | n + 1, restart, a, s =>
    (dataWrite { c with word := movemWord c.word n } restart a 4 (readReg (BitVec.ofNat 4 n) s) s).andThen
      fun _ s' => storeRegs c n none (a + 4#32) s'

/-- MOVEM forms without a meaning: U6 (d), U6 (f), U14. -/
def movemRefusal (load : Bool) (d : RegNo) (md : Bool) (r : RegNo) (s : State) : Option Refusal :=
  if load && md && decide (r.toNat ≤ d.toNat) then some .movemAddressLoaded
  else if md && s.prefixAddr.isSome && (restartCycle s).isSome then some .movemAssignRestart
  else if load && d == 15#4 && s.delay.isSome then some .forbiddenInDelaySlot
  else operandRefusal md r s

/-- MOVEM [ ],Rd: Rd from the lowest address, R0 from the highest; a loaded PC takes effect at the end (R254). -/
def movemLoadOp (word : Half) (d : RegNo) (md : Bool) (r : RegNo) (s : State) : Host.Outcome State Fault Refusal :=
  match movemRefusal true d md r s with
  | some x => .refused x
  | none =>
    let n := 4 * (d.toNat + 1)
    let a := operandAddress r s
    let inl := isInline md r s
    let seq := endAddress md r n s
    let c : Ctx := { word := word, endPc := seq }
    if d = 15#4 then
      (readOperand { c with word := movemWord word 15 } inl (restartCycle s) a 4 s).finish fun t s' =>
        (loadRegs { c with pcLoaded := true } inl 15 none (a + 4#32) s').finish fun _ s'' =>
          complete (ending seq (.jump t) false) (updateAddress md r n a s'')
    else
      (loadRegs c inl (d.toNat + 1) (restartCycle s) a s).finish fun _ s' =>
        complete (ending seq .none false) (updateAddress md r n a s')

/-- MOVEM Rs,[ ]: the conditional test is made once (R255, 20_memory.md R76). -/
def movemStoreOp (word : Half) (r : RegNo) (md : Bool) (d : RegNo) (s : State) : Host.Outcome State Fault Refusal :=
  match movemRefusal false r md d s with
  | some x => .refused x
  | none =>
    let n := 4 * (r.toNat + 1)
    let a := operandAddress d s
    let seq := endAddress md d n s
    (if storeSuppressed s then .done () (noteSuppressed s)
     else storeRegs { word := word, endPc := seq } (r.toNat + 1) (restartCycle s) a s).finish fun _ s' =>
      complete (ending seq .none false) (updateAddress md d n a s')

/-! ## Branches and jumps -/

/-- The displacement of the 8-bit Bcc: bits 7:1 as they are, bit 0 the sign (45_jump_branch.md R401). -/
def branchDisp (o : BitVec 8) : Word :=
  ((o &&& 0xFE#8).setWidth 32) - (if o.getLsbD 0 then 256#32 else 0#32)

/-- Bcc once its displacement and the address after it are known (45_jump_branch.md R400). -/
def branch (c : Cond) (disp seq : Word) (s : State) : Host.Outcome State Fault Refusal :=
  complete (ending seq (if condHolds c s.flags then .delayed (seq + disp) false else .none) true) s

/-- Words that transfer control have no meaning after a prefix (U5) or in the slot of a taken transfer (U14). -/
def transferRefusal (s : State) : Option Refusal :=
  if s.prefixAddr.isSome then some .prefixUnusable
  else if s.delay.isSome then some .forbiddenInDelaySlot
  else none

/-- Bcc with the 8-bit offset (45_jump_branch.md R401). -/
def branchShort (c : Cond) (o : BitVec 8) (s : State) : Host.Outcome State Fault Refusal :=
  match transferRefusal s with
  | some x => .refused x
  | none => branch c (branchDisp o) (pcPlus2 s) s

/-- Bcc with the 16-bit offset, an in-line word (45_jump_branch.md R402). -/
def branchLong (word : Half) (c : Cond) (s : State) : Host.Outcome State Fault Refusal :=
  match transferRefusal s with
  | some x => .refused x
  | none =>
    let seq := endAddress true 15#4 2 s
    (loadOperand { word := word, endPc := seq } true 15#4 2 s).finish fun x s' =>
      branch c (sextSize .word x) seq s'

/-- A member of the jump family: where it saves its return address, how far that lies beyond the instruction, and whether
it may change to user mode (45_jump_branch.md R406 to R413). -/
structure JumpKind where
  /-- The link register. -/
  link : Option SReg
  /-- 4 for the members with context. -/
  skip : Word
  /-- JMPU. -/
  toUser : Bool
deriving DecidableEq, Repr

/-- JUMP (45_jump_branch.md R407). -/
def kindJump : JumpKind := { link := none, skip := 0#32, toUser := false }
/-- JMPU (45_jump_branch.md R408). -/
def kindJmpu : JumpKind := { link := none, skip := 0#32, toUser := true }
/-- JSR (45_jump_branch.md R409). -/
def kindJsr : JumpKind := { link := some .srp, skip := 0#32, toUser := false }
/-- JIR (45_jump_branch.md R410). -/
def kindJir : JumpKind := { link := some .irp, skip := 0#32, toUser := false }
/-- JSRC (45_jump_branch.md R411, R413). -/
def kindJsrc : JumpKind := { link := some .srp, skip := 4#32, toUser := false }
/-- JIRC (45_jump_branch.md R412, R413). -/
def kindJirc : JumpKind := { link := some .irp, skip := 4#32, toUser := false }
/-- JBRC (45_jump_branch.md R412, R413). -/
def kindJbrc : JumpKind := { link := some .brp, skip := 4#32, toUser := false }

/-- The link register and the mode written (45_jump_branch.md R406, R408). -/
def saveLink (k : JumpKind) (seq : Word) (s : State) : State :=
  let s' := match k.link with
    | some p => writeSreg p (seq + k.skip) s
    | none => s
  if k.toUser && s'.flags.u then { s' with mode := .user } else s'

/-- Save the return address and jump at once (45_jump_branch.md R406). -/
def jumpWith (k : JumpKind) (seq t : Word) (s : State) : Host.Outcome State Fault Refusal :=
  complete (ending seq (.jump t) true) (saveLink k seq s)

/-- A register form of the jump family. -/
def jumpReg (k : JumpKind) (r : RegNo) (s : State) : Host.Outcome State Fault Refusal :=
  match transferRefusal s with
  | some x => .refused x
  | none => jumpWith k (pcPlus2 s) (readReg r s) s

/-- A memory form of the jump family. -/
def jumpMem (k : JumpKind) (word : Half) (md : Bool) (r : RegNo) (s : State) : Host.Outcome State Fault Refusal :=
  if s.delay.isSome then .refused .forbiddenInDelaySlot
  else
    let seq := endAddress md r 4 s
    (loadOperand { word := word, endPc := seq } md r 4 s).finish fun t s' => jumpWith k seq t s'

/-! ## Prefix words -/

/-- BIAP: with a pending address, that is the base (40_addressing.md R210, R214; log 27). -/
def indexPrefix (shift : Nat) (k b : RegNo) (s : State) : Host.Outcome State Fault Refusal :=
  if s.delay.isSome then .refused .forbiddenInDelaySlot
  else
    let base := s.prefixAddr.getD (if b = 15#4 then pcPlus2 s + 2#32 else readReg b s)
    completePrefix (pcPlus2 s) (base + (readReg k s <<< shift)) s

/-- BDAP with the 8-bit displacement (40_addressing.md R211). After another prefix it is U5 (R214). -/
def bytePrefix (b : RegNo) (o : BitVec 8) (s : State) : Host.Outcome State Fault Refusal :=
  if s.delay.isSome then .refused .forbiddenInDelaySlot
  else if s.prefixAddr.isSome then .refused .prefixUnusable
  else completePrefix (pcPlus2 s) (readReg b s + o.signExtend 32) s

/-- The data that a prefix word reads: the offset of BDAP, the pointer of DIP. A pending address takes the place of the
register, which is then not updated (40_addressing.md R212 to R214; log 27). -/
def prefixOperand (c : Ctx) (md : Bool) (r : RegNo) (n : Nat) (s : State) : Act Word :=
  (readOperand c (isInline md r s) (restartCycle s) (operandAddress r s) n s).andThen fun v s' =>
    .done v (if md && s.prefixAddr.isNone then writeReg r (operandAddress r s + BitVec.ofNat 32 n) s' else s')

/-- BDAP, general form. The base is read after the offset register's increment (40_addressing.md R212; log 34). -/
def offsetPrefix (m : Size) (word : Half) (b : RegNo) (md : Bool) (r : RegNo) (s : State) :
    Host.Outcome State Fault Refusal :=
  if s.delay.isSome then .refused .forbiddenInDelaySlot
  else
    let seq := endAddress md r (sizeBytes m) s
    (prefixOperand { word := word, endPc := seq } md r (sizeBytes m) s).finish fun v s' =>
      completePrefix seq ((if b = 15#4 then seq else readReg b s') + sextSize m v) s'

/-- DIP (40_addressing.md R213). -/
def pointerPrefix (word : Half) (md : Bool) (r : RegNo) (s : State) : Host.Outcome State Fault Refusal :=
  if s.delay.isSome then .refused .forbiddenInDelaySlot
  else
    let seq := endAddress md r 4 s
    (prefixOperand { word := word, endPc := seq } md r 4 s).finish fun v s' => completePrefix seq v s'

/-! ## The CPU status record in memory (60_exceptions.md R481) -/

/-- The part of byte `j` of a record that a field of `n` bytes at offset `off` gives. -/
def placeField (off n j : Nat) (v : Word) : Byte :=
  if off ≤ j ∧ j < off + n then (v >>> (8 * (j - off))).setWidth 8 else 0#8

/-- Byte `j` of a record in memory, the fields where `SR_OFF_*` put them. -/
def recordByte (l : Config.RecordLayout) (r : StatusRecord) (j : Nat) : Byte :=
  placeField l.pc 4 j r.pc ||| placeField l.state 2 j (r.state.setWidth 32) |||
    placeField l.instr 2 j (r.instr.setWidth 32) ||| placeField l.addr 4 j r.addr ||| placeField l.data 4 j r.data

/-- `n` bytes as a dword, little endian (20_memory.md R72). -/
def joinBytes (b : Nat → Byte) : Nat → Word
  | 0 => 0#32
  | n + 1 => joinBytes b n ||| ((b n).setWidth 32 <<< (8 * n))

/-- Dword `k` of a record in memory. -/
def recordDword (l : Config.RecordLayout) (r : StatusRecord) (k : Nat) : Word :=
  joinBytes (fun i => recordByte l r (4 * k + i)) 4

/-- Byte `j` of four dwords. -/
def byteOfDwords (d : Vector Word 4) (j : Nat) : Byte := ((d[j / 4]?).getD 0#32 >>> (8 * (j % 4))).setWidth 8

/-- The record that four dwords hold, the fields where `SR_OFF_*` put them. -/
def recordOfDwords (l : Config.RecordLayout) (d : Vector Word 4) : StatusRecord :=
  let field := fun (off n : Nat) => joinBytes (fun i => byteOfDwords d (off + i)) n
  { pc := field l.pc 4, state := (field l.state 2).setWidth 16, instr := (field l.instr 2).setWidth 16
    addr := field l.addr 4, data := field l.data 4 }

/-- Dwords `k` to 3 of a record, written at ascending addresses (45_jump_branch.md R430). -/
def storeRecord (c : Ctx) (r : StatusRecord) : Nat → Option RestartCycle → Word → State → Act Unit
  | 0, _, _, s => .done () s
  | n + 1, restart, a, s =>
    (dataWrite c restart a 4 (recordDword s.layout r (3 - n)) s).andThen fun _ s' => storeRecord c r n none (a + 4#32) s'

/-- SBFS: never suppressed (45_jump_branch.md R430, 20_memory.md R76; log 25 for its restart). -/
def saveStatus (word : Half) (md : Bool) (d : RegNo) (s : State) : Host.Outcome State Fault Refusal :=
  match operandRefusal md d s with
  | some x => .refused x
  | none =>
    let seq := endAddress md d 16 s
    let a := operandAddress d s
    (storeRecord { word := word, endPc := seq } s.hidden 4 (restartCycle s) a s).finish fun _ s' =>
      complete (ending seq .none false) (updateAddress md d 16 a s')

/-- The four dwords of a record, read at ascending addresses (45_jump_branch.md R431; log 25 for its restart). -/
def loadRecord (c : Ctx) (inLine : Bool) (restart : Option RestartCycle) (a : Word) (s : State) : Act StatusRecord :=
  (readOperand c inLine restart a 4 s).andThen fun d0 s0 =>
    (readOperand c inLine none (a + 4#32) 4 s0).andThen fun d1 s1 =>
      (readOperand c inLine none (a + 8#32) 4 s1).andThen fun d2 s2 =>
        (readOperand c inLine none (a + 12#32) 4 s2).andThen fun d3 s3 =>
          .done (recordOfDwords s3.layout #v[d0, d1, d2, d3]) s3

/-! ## Restart (60_exceptions.md R488 to R491) -/

/-- State with the restart of a record set up: the next step runs it, with no event check before it (60_exceptions.md
R490 (4); log 24). -/
def setRestart (r : StatusRecord) (pc : Word) (restart : Restart) (prefixAddr : Option Word) (s : State) : State :=
  { s with
    pc := pc, prefixAddr := prefixAddr, resume := some restart, inhibit := true, prefetch := none
    delay := if r.state.getLsbD 2 then some { target := r.pc, ret := r.state.getLsbD 3 } else none
    stores := { s.stores with fresh := [] } }

/-- Restart of an instruction fetch (60_exceptions.md R490, R488, R469). No fetch and no vector read has a second cycle, so
bit 5 contradicts such a record (R488, U15; log 24). -/
def restartFetch (r : StatusRecord) (s : State) : Host.Outcome State Fault Refusal :=
  let slot := r.state.getLsbD 2
  if r.state.getLsbD 5 || !slot && !r.state.getLsbD 0 && r.pc != r.addr + 2#32 then .refused .inconsistentRecord
  else if r.addr.getLsbD 0 then .fault (.oddTarget r.addr)
  else if r.pc.getLsbD 0 then .fault (.oddTarget r.pc)
  else .next (setRestart r r.addr { next := if slot then r.addr + 2#32 else r.pc, cycle := none }
    (if r.state.getLsbD 1 then some r.data else none) s)

/-- Restart of a data cycle of a word with memory form `m` (60_exceptions.md R490, R491, R488; log 24). The word's own address
is not in the record: PC as an operand is computed from the PC field (R490 (3)). For a delay-slot word, where that field is
the branch target (R482 (d)) and R490 (3) names case (c) only, PC reads as the target. DESIGN CHOICE, unsafe: log 46. -/
def restartData (m : MemoryForm) (r : StatusRecord) (s : State) : Host.Outcome State Fault Refusal :=
  let inl := m.md && m.reg == 15#4 && !r.state.getLsbD 1
  let next := if r.state.getLsbD 2 then r.pc
    else r.pc - (if inl then BitVec.ofNat 32 (inlineStep m.bytes) else 0#32)
  if r.state.getLsbD 5 && !crosses r.addr m.unit then .refused .inconsistentRecord
  else if r.pc.getLsbD 0 then .fault (.oddTarget r.pc)
  else .next (setRestart r (next - 2#32)
    { next := next
      cycle := some { instr := r.instr, addr := r.addr, data := r.data, second := r.state.getLsbD 5 } }
    (if r.state.getLsbD 1 then some r.addr else none) s)

/-- What a record makes the CPU do next (60_exceptions.md R490). `form` is the memory form of the instruction field. -/
def restart (form : Option MemoryForm) (r : StatusRecord) (s : State) : Host.Outcome State Fault Refusal :=
  if r.state.getLsbD 3 && !r.state.getLsbD 2 then .refused .inconsistentRecord
  else if r.state.getLsbD 4 then
    match form with
    | none => .refused .inconsistentRecord
    | some m => restartData m r s
  else restartFetch r s

/-- The flag and mode effects of RBF (45_jump_branch.md R431). -/
def restoreMode (r : StatusRecord) (s : State) : State :=
  { s with
    mode := if s.flags.u then .user else s.mode
    flags := { s.flags with x := r.state.getLsbD 6, u := r.state.getLsbD 7 } }

end Sys2Proof.Machine
end

