-- ==== Sys2Proof/Machine/Addressing.lean ====
section
/-! DEFINITION. Sys2Proof/Machine/Addressing.lean: the meanings of the addressing-mode prefix words (40_addressing.md R209 to R214). -/

namespace Sys2Proof.Machine

/-- `BDAP_o_Rb` (40_addressing.md R211). -/
def execBdapByte (b : RegNo) (o : BitVec 8) (s : State) : Host.Outcome State Fault Refusal :=
  bytePrefix b o s

/-- `BIAP_Rs.B_Rb` (40_addressing.md R210). -/
def execBiapB (k : RegNo) (b : RegNo) (s : State) : Host.Outcome State Fault Refusal :=
  indexPrefix 0 k b s

/-- `BIAP_Rs.W_Rb` (40_addressing.md R210). -/
def execBiapW (k : RegNo) (b : RegNo) (s : State) : Host.Outcome State Fault Refusal :=
  indexPrefix 1 k b s

/-- `BIAP_Rs.D_Rb` (40_addressing.md R210). -/
def execBiapD (k : RegNo) (b : RegNo) (s : State) : Host.Outcome State Fault Refusal :=
  indexPrefix 2 k b s

/-- `BDAP____.B_Rb` (40_addressing.md R212). -/
def execBdapB (b : RegNo) (md : Bool) (r : RegNo) (s : State) : Host.Outcome State Fault Refusal :=
  offsetPrefix .byte (encode (.bdapB b md r)) b md r s

/-- `BDAP____.W_Rb` (40_addressing.md R212). -/
def execBdapW (b : RegNo) (md : Bool) (r : RegNo) (s : State) : Host.Outcome State Fault Refusal :=
  offsetPrefix .word (encode (.bdapW b md r)) b md r s

/-- `BDAP____.D_Rb` (40_addressing.md R212). -/
def execBdapD (b : RegNo) (md : Bool) (r : RegNo) (s : State) : Host.Outcome State Fault Refusal :=
  offsetPrefix .dword (encode (.bdapD b md r)) b md r s

/-- `DIP` (40_addressing.md R213). -/
def execDip (md : Bool) (r : RegNo) (s : State) : Host.Outcome State Fault Refusal :=
  pointerPrefix (encode (.dip md r)) md r s

end Sys2Proof.Machine
end

