-- ==== Sys2Proof/Machine/Arith.lean ====
section
/-! DEFINITION. Sys2Proof/Machine/Arith.lean: the meanings of the arithmetic instructions (42_arithmetic.md). -/

namespace Sys2Proof.Machine

/-- `ADDQ_j_Rd` (42_arithmetic.md R287). -/
def execAddq (d : RegNo) (j : BitVec 6) (s : State) : Host.Outcome State Fault Refusal :=
  aluCore (formUpdate .dword) (calcAdd .dword) d (j.setWidth 32) s

/-- `SUBQ_j_Rd` (42_arithmetic.md R299). -/
def execSubq (d : RegNo) (j : BitVec 6) (s : State) : Host.Outcome State Fault Refusal :=
  aluCore (formUpdate .dword) (calcSub .dword) d (j.setWidth 32) s

/-- `CMPQ_i_Rd` (42_arithmetic.md R292). -/
def execCmpq (d : RegNo) (i : BitVec 6) (s : State) : Host.Outcome State Fault Refusal :=
  aluCore (formCompare .dword) (calcSub .dword) d (i.signExtend 32) s

/-- `ADDU.B_Rs_Rd` (42_arithmetic.md R289). -/
def execAdduBReg (d : RegNo) (r : RegNo) (s : State) : Host.Outcome State Fault Refusal :=
  aluReg (formUnsigned .byte) (calcAdd .dword) d r s

/-- `ADDU.B_____Rd` (42_arithmetic.md R289). -/
def execAdduBMem (d : RegNo) (md : Bool) (r : RegNo) (s : State) : Host.Outcome State Fault Refusal :=
  aluMem (formUnsigned .byte) (calcAdd .dword) (encode (.adduBMem d md r)) d md r s

/-- `ADDU.W_Rs_Rd` (42_arithmetic.md R289). -/
def execAdduWReg (d : RegNo) (r : RegNo) (s : State) : Host.Outcome State Fault Refusal :=
  aluReg (formUnsigned .word) (calcAdd .dword) d r s

/-- `ADDU.W_____Rd` (42_arithmetic.md R289). -/
def execAdduWMem (d : RegNo) (md : Bool) (r : RegNo) (s : State) : Host.Outcome State Fault Refusal :=
  aluMem (formUnsigned .word) (calcAdd .dword) (encode (.adduWMem d md r)) d md r s

/-- `ADDS.B_Rs_Rd` (42_arithmetic.md R288). -/
def execAddsBReg (d : RegNo) (r : RegNo) (s : State) : Host.Outcome State Fault Refusal :=
  aluReg (formSigned .byte) (calcAdd .dword) d r s

/-- `ADDS.B_____Rd` (42_arithmetic.md R288). -/
def execAddsBMem (d : RegNo) (md : Bool) (r : RegNo) (s : State) : Host.Outcome State Fault Refusal :=
  aluMem (formSigned .byte) (calcAdd .dword) (encode (.addsBMem d md r)) d md r s

/-- `ADDS.W_Rs_Rd` (42_arithmetic.md R288). -/
def execAddsWReg (d : RegNo) (r : RegNo) (s : State) : Host.Outcome State Fault Refusal :=
  aluReg (formSigned .word) (calcAdd .dword) d r s

/-- `ADDS.W_____Rd` (42_arithmetic.md R288). -/
def execAddsWMem (d : RegNo) (md : Bool) (r : RegNo) (s : State) : Host.Outcome State Fault Refusal :=
  aluMem (formSigned .word) (calcAdd .dword) (encode (.addsWMem d md r)) d md r s

/-- `SUBU.B_Rs_Rd` (42_arithmetic.md R301). -/
def execSubuBReg (d : RegNo) (r : RegNo) (s : State) : Host.Outcome State Fault Refusal :=
  aluReg (formUnsigned .byte) (calcSub .dword) d r s

/-- `SUBU.B_____Rd` (42_arithmetic.md R301). -/
def execSubuBMem (d : RegNo) (md : Bool) (r : RegNo) (s : State) : Host.Outcome State Fault Refusal :=
  aluMem (formUnsigned .byte) (calcSub .dword) (encode (.subuBMem d md r)) d md r s

/-- `SUBU.W_Rs_Rd` (42_arithmetic.md R301). -/
def execSubuWReg (d : RegNo) (r : RegNo) (s : State) : Host.Outcome State Fault Refusal :=
  aluReg (formUnsigned .word) (calcSub .dword) d r s

/-- `SUBU.W_____Rd` (42_arithmetic.md R301). -/
def execSubuWMem (d : RegNo) (md : Bool) (r : RegNo) (s : State) : Host.Outcome State Fault Refusal :=
  aluMem (formUnsigned .word) (calcSub .dword) (encode (.subuWMem d md r)) d md r s

/-- `SUBS.B_Rs_Rd` (42_arithmetic.md R300). -/
def execSubsBReg (d : RegNo) (r : RegNo) (s : State) : Host.Outcome State Fault Refusal :=
  aluReg (formSigned .byte) (calcSub .dword) d r s

/-- `SUBS.B_____Rd` (42_arithmetic.md R300). -/
def execSubsBMem (d : RegNo) (md : Bool) (r : RegNo) (s : State) : Host.Outcome State Fault Refusal :=
  aluMem (formSigned .byte) (calcSub .dword) (encode (.subsBMem d md r)) d md r s

/-- `SUBS.W_Rs_Rd` (42_arithmetic.md R300). -/
def execSubsWReg (d : RegNo) (r : RegNo) (s : State) : Host.Outcome State Fault Refusal :=
  aluReg (formSigned .word) (calcSub .dword) d r s

/-- `SUBS.W_____Rd` (42_arithmetic.md R300). -/
def execSubsWMem (d : RegNo) (md : Bool) (r : RegNo) (s : State) : Host.Outcome State Fault Refusal :=
  aluMem (formSigned .word) (calcSub .dword) (encode (.subsWMem d md r)) d md r s

/-- `CMPU.B_____Rd` (42_arithmetic.md R294). -/
def execCmpuBMem (d : RegNo) (md : Bool) (r : RegNo) (s : State) : Host.Outcome State Fault Refusal :=
  aluMem (formCompareUnsigned .byte) (calcSub .dword) (encode (.cmpuBMem d md r)) d md r s

/-- `CMPU.W_____Rd` (42_arithmetic.md R294). -/
def execCmpuWMem (d : RegNo) (md : Bool) (r : RegNo) (s : State) : Host.Outcome State Fault Refusal :=
  aluMem (formCompareUnsigned .word) (calcSub .dword) (encode (.cmpuWMem d md r)) d md r s

/-- `CMPS.B_____Rd` (42_arithmetic.md R293). -/
def execCmpsBMem (d : RegNo) (md : Bool) (r : RegNo) (s : State) : Host.Outcome State Fault Refusal :=
  aluMem (formCompareSigned .byte) (calcSub .dword) (encode (.cmpsBMem d md r)) d md r s

/-- `CMPS.W_____Rd` (42_arithmetic.md R293). -/
def execCmpsWMem (d : RegNo) (md : Bool) (r : RegNo) (s : State) : Host.Outcome State Fault Refusal :=
  aluMem (formCompareSigned .word) (calcSub .dword) (encode (.cmpsWMem d md r)) d md r s

/-- `NEG.B_Rs_Rd` (42_arithmetic.md R297). -/
def execNegBReg (d : RegNo) (r : RegNo) (s : State) : Host.Outcome State Fault Refusal :=
  aluReg (formNeg .byte) (calcNeg .byte) d r s

/-- `NEG.W_Rs_Rd` (42_arithmetic.md R297). -/
def execNegWReg (d : RegNo) (r : RegNo) (s : State) : Host.Outcome State Fault Refusal :=
  aluReg (formNeg .word) (calcNeg .word) d r s

/-- `NEG.D_Rs_Rd` (42_arithmetic.md R297). -/
def execNegDReg (d : RegNo) (r : RegNo) (s : State) : Host.Outcome State Fault Refusal :=
  aluReg (formNeg .dword) (calcNeg .dword) d r s

/-- `BOUND.B_Rs_Rd` (42_arithmetic.md R290). -/
def execBoundBReg (d : RegNo) (r : RegNo) (s : State) : Host.Outcome State Fault Refusal :=
  aluReg (formBound .byte) calcBound d r s

/-- `BOUND.B_____Rd` (42_arithmetic.md R290). -/
def execBoundBMem (d : RegNo) (md : Bool) (r : RegNo) (s : State) : Host.Outcome State Fault Refusal :=
  aluMem (formBound .byte) calcBound (encode (.boundBMem d md r)) d md r s

/-- `BOUND.W_Rs_Rd` (42_arithmetic.md R290). -/
def execBoundWReg (d : RegNo) (r : RegNo) (s : State) : Host.Outcome State Fault Refusal :=
  aluReg (formBound .word) calcBound d r s

/-- `BOUND.W_____Rd` (42_arithmetic.md R290). -/
def execBoundWMem (d : RegNo) (md : Bool) (r : RegNo) (s : State) : Host.Outcome State Fault Refusal :=
  aluMem (formBound .word) calcBound (encode (.boundWMem d md r)) d md r s

/-- `BOUND.D_Rs_Rd` (42_arithmetic.md R290). -/
def execBoundDReg (d : RegNo) (r : RegNo) (s : State) : Host.Outcome State Fault Refusal :=
  aluReg (formBound .dword) calcBound d r s

/-- `BOUND.D_____Rd` (42_arithmetic.md R290). -/
def execBoundDMem (d : RegNo) (md : Bool) (r : RegNo) (s : State) : Host.Outcome State Fault Refusal :=
  aluMem (formBound .dword) calcBound (encode (.boundDMem d md r)) d md r s

/-- `ADD.B_Rs_Rd` (42_arithmetic.md R285). -/
def execAddBReg (d : RegNo) (r : RegNo) (s : State) : Host.Outcome State Fault Refusal :=
  aluReg (formSized .byte) (calcAdd .byte) d r s

/-- `ADD.B_____Rd` (42_arithmetic.md R285). -/
def execAddBMem (d : RegNo) (md : Bool) (r : RegNo) (s : State) : Host.Outcome State Fault Refusal :=
  aluMem (formSized .byte) (calcAdd .byte) (encode (.addBMem d md r)) d md r s

/-- `ADD.W_Rs_Rd` (42_arithmetic.md R285). -/
def execAddWReg (d : RegNo) (r : RegNo) (s : State) : Host.Outcome State Fault Refusal :=
  aluReg (formSized .word) (calcAdd .word) d r s

/-- `ADD.W_____Rd` (42_arithmetic.md R285). -/
def execAddWMem (d : RegNo) (md : Bool) (r : RegNo) (s : State) : Host.Outcome State Fault Refusal :=
  aluMem (formSized .word) (calcAdd .word) (encode (.addWMem d md r)) d md r s

/-- `ADD.D_Rs_Rd` (42_arithmetic.md R285). -/
def execAddDReg (d : RegNo) (r : RegNo) (s : State) : Host.Outcome State Fault Refusal :=
  aluReg (formSized .dword) (calcAdd .dword) d r s

/-- `ADD.D_____Rd` (42_arithmetic.md R285). -/
def execAddDMem (d : RegNo) (md : Bool) (r : RegNo) (s : State) : Host.Outcome State Fault Refusal :=
  aluMem (formSized .dword) (calcAdd .dword) (encode (.addDMem d md r)) d md r s

/-- `SUB.B_Rs_Rd` (42_arithmetic.md R298). -/
def execSubBReg (d : RegNo) (r : RegNo) (s : State) : Host.Outcome State Fault Refusal :=
  aluReg (formSized .byte) (calcSub .byte) d r s

/-- `SUB.B_____Rd` (42_arithmetic.md R298). -/
def execSubBMem (d : RegNo) (md : Bool) (r : RegNo) (s : State) : Host.Outcome State Fault Refusal :=
  aluMem (formSized .byte) (calcSub .byte) (encode (.subBMem d md r)) d md r s

/-- `SUB.W_Rs_Rd` (42_arithmetic.md R298). -/
def execSubWReg (d : RegNo) (r : RegNo) (s : State) : Host.Outcome State Fault Refusal :=
  aluReg (formSized .word) (calcSub .word) d r s

/-- `SUB.W_____Rd` (42_arithmetic.md R298). -/
def execSubWMem (d : RegNo) (md : Bool) (r : RegNo) (s : State) : Host.Outcome State Fault Refusal :=
  aluMem (formSized .word) (calcSub .word) (encode (.subWMem d md r)) d md r s

/-- `SUB.D_Rs_Rd` (42_arithmetic.md R298). -/
def execSubDReg (d : RegNo) (r : RegNo) (s : State) : Host.Outcome State Fault Refusal :=
  aluReg (formSized .dword) (calcSub .dword) d r s

/-- `SUB.D_____Rd` (42_arithmetic.md R298). -/
def execSubDMem (d : RegNo) (md : Bool) (r : RegNo) (s : State) : Host.Outcome State Fault Refusal :=
  aluMem (formSized .dword) (calcSub .dword) (encode (.subDMem d md r)) d md r s

/-- `CMP.B_Rs_Rd` (42_arithmetic.md R291). -/
def execCmpBReg (d : RegNo) (r : RegNo) (s : State) : Host.Outcome State Fault Refusal :=
  aluReg (formCompare .byte) (calcSub .byte) d r s

/-- `CMP.B_____Rd` (42_arithmetic.md R291). -/
def execCmpBMem (d : RegNo) (md : Bool) (r : RegNo) (s : State) : Host.Outcome State Fault Refusal :=
  aluMem (formCompare .byte) (calcSub .byte) (encode (.cmpBMem d md r)) d md r s

/-- `CMP.W_Rs_Rd` (42_arithmetic.md R291). -/
def execCmpWReg (d : RegNo) (r : RegNo) (s : State) : Host.Outcome State Fault Refusal :=
  aluReg (formCompare .word) (calcSub .word) d r s

/-- `CMP.W_____Rd` (42_arithmetic.md R291). -/
def execCmpWMem (d : RegNo) (md : Bool) (r : RegNo) (s : State) : Host.Outcome State Fault Refusal :=
  aluMem (formCompare .word) (calcSub .word) (encode (.cmpWMem d md r)) d md r s

/-- `CMP.D_Rs_Rd` (42_arithmetic.md R291). -/
def execCmpDReg (d : RegNo) (r : RegNo) (s : State) : Host.Outcome State Fault Refusal :=
  aluReg (formCompare .dword) (calcSub .dword) d r s

/-- `CMP.D_____Rd` (42_arithmetic.md R291). -/
def execCmpDMem (d : RegNo) (md : Bool) (r : RegNo) (s : State) : Host.Outcome State Fault Refusal :=
  aluMem (formCompare .dword) (calcSub .dword) (encode (.cmpDMem d md r)) d md r s

/-- `ADDI_Rs.B_Rd` (42_arithmetic.md R286). -/
def execAddiB (k : RegNo) (d : RegNo) (s : State) : Host.Outcome State Fault Refusal :=
  aluReg (formUpdateNoPc .dword) (calcAddi 0) d k s

/-- `ADDI_Rs.W_Rd` (42_arithmetic.md R286). -/
def execAddiW (k : RegNo) (d : RegNo) (s : State) : Host.Outcome State Fault Refusal :=
  aluReg (formUpdateNoPc .dword) (calcAddi 1) d k s

/-- `ADDI_Rs.D_Rd` (42_arithmetic.md R286). -/
def execAddiD (k : RegNo) (d : RegNo) (s : State) : Host.Outcome State Fault Refusal :=
  aluReg (formUpdateNoPc .dword) (calcAddi 2) d k s

/-- `ABS_Rs_Rd` (42_arithmetic.md R284). -/
def execAbs (d : RegNo) (r : RegNo) (s : State) : Host.Outcome State Fault Refusal :=
  aluReg (formMove .dword) calcAbs d r s

/-- `DSTEP_Rs_Rd` (42_arithmetic.md R295). -/
def execDstep (d : RegNo) (r : RegNo) (s : State) : Host.Outcome State Fault Refusal :=
  aluReg (formUpdateNoPc .dword) calcDstep d r s

/-- `MSTEP_Rs_Rd` (42_arithmetic.md R296). -/
def execMstep (d : RegNo) (r : RegNo) (s : State) : Host.Outcome State Fault Refusal :=
  aluReg (formUpdateNoPc .dword) calcMstep d r s

/-- `MULS.B_Rs_Rd` (42_arithmetic.md R313). -/
def execMulsB (d : RegNo) (r : RegNo) (s : State) : Host.Outcome State Fault Refusal :=
  mulReg (productSigned .byte) mulsFlags d r s

/-- `MULS.W_Rs_Rd` (42_arithmetic.md R313). -/
def execMulsW (d : RegNo) (r : RegNo) (s : State) : Host.Outcome State Fault Refusal :=
  mulReg (productSigned .word) mulsFlags d r s

/-- `MULS.D_Rs_Rd` (42_arithmetic.md R313). -/
def execMulsD (d : RegNo) (r : RegNo) (s : State) : Host.Outcome State Fault Refusal :=
  mulReg (productSigned .dword) mulsFlags d r s

/-- `MULU.B_Rs_Rd` (42_arithmetic.md R314). -/
def execMuluB (d : RegNo) (r : RegNo) (s : State) : Host.Outcome State Fault Refusal :=
  mulReg (productUnsigned .byte) muluFlags d r s

/-- `MULU.W_Rs_Rd` (42_arithmetic.md R314). -/
def execMuluW (d : RegNo) (r : RegNo) (s : State) : Host.Outcome State Fault Refusal :=
  mulReg (productUnsigned .word) muluFlags d r s

/-- `MULU.D_Rs_Rd` (42_arithmetic.md R314). -/
def execMuluD (d : RegNo) (r : RegNo) (s : State) : Host.Outcome State Fault Refusal :=
  mulReg (productUnsigned .dword) muluFlags d r s

/-- `TEST.B` (42_arithmetic.md R302). -/
def execTestBMem (md : Bool) (r : RegNo) (s : State) : Host.Outcome State Fault Refusal :=
  aluMem (formTest .byte) (calcMove .byte) (encode (.testBMem md r)) 0#4 md r s

/-- `TEST.W` (42_arithmetic.md R302). -/
def execTestWMem (md : Bool) (r : RegNo) (s : State) : Host.Outcome State Fault Refusal :=
  aluMem (formTest .word) (calcMove .word) (encode (.testWMem md r)) 0#4 md r s

/-- `TEST.D` (42_arithmetic.md R302). -/
def execTestDMem (md : Bool) (r : RegNo) (s : State) : Host.Outcome State Fault Refusal :=
  aluMem (formTest .dword) (calcMove .dword) (encode (.testDMem md r)) 0#4 md r s

/-- `TEST.B_Rs` (42_arithmetic.md R302: MOVE.m Rs,Rs). No register is written; PC is only read (R283), although the word is
MOVE.B PC,PC (30_encoding.md R160) and 10_state.md R30 would jump. DEDUCED, unsafe: log 45. -/
def execTestBReg (r : RegNo) (s : State) : Host.Outcome State Fault Refusal :=
  aluReg (formTest .byte) (calcMove .byte) r r s

/-- `TEST.W_Rs` (42_arithmetic.md R302: MOVE.m Rs,Rs). No register is written; PC is only read (R283), although the word is
MOVE.W PC,PC (30_encoding.md R160) and 10_state.md R30 would jump. DEDUCED, unsafe: log 45. -/
def execTestWReg (r : RegNo) (s : State) : Host.Outcome State Fault Refusal :=
  aluReg (formTest .word) (calcMove .word) r r s

/-- `TEST.D_Rs` (42_arithmetic.md R302: MOVE.m Rs,Rs). No register is written; PC is only read (R283), although the word is
MOVE.D PC,PC (30_encoding.md R160) and 10_state.md R30 would jump. DEDUCED, unsafe: log 45. -/
def execTestDReg (r : RegNo) (s : State) : Host.Outcome State Fault Refusal :=
  aluReg (formTest .dword) (calcMove .dword) r r s

end Sys2Proof.Machine
end

