-- ==== Sys2Proof/Machine/BusFaultOps.lean ====
section
/-! DEFINITION. Sys2Proof/Machine/BusFaultOps.lean: the meanings of the SBFS and RBF (45_jump_branch.md R430, R431). -/

namespace Sys2Proof.Machine

/-- The memory form of an instruction word, if it has one (30_encoding.md R152; Bcc with its in-line offset is
`Bcc [PC+]`). P2, P3 and P6 have no width (U4). -/
def memoryForm : Instr → Option MemoryForm
  | .bcc _ _ => none
  | .bdapByte _ _ => none
  | .addq _ _ => none
  | .moveq _ _ => none
  | .subq _ _ => none
  | .cmpq _ _ => none
  | .andq _ _ => none
  | .orq _ _ => none
  | .btstq _ _ => none
  | .asrq _ _ => none
  | .lslq _ _ => none
  | .lsrq _ _ => none
  | .adduBReg _ _ => none
  | .adduBMem _ md r => some { md := md, reg := r, unit := 1, bytes := 1 }
  | .adduWReg _ _ => none
  | .adduWMem _ md r => some { md := md, reg := r, unit := 2, bytes := 2 }
  | .addsBReg _ _ => none
  | .addsBMem _ md r => some { md := md, reg := r, unit := 1, bytes := 1 }
  | .addsWReg _ _ => none
  | .addsWMem _ md r => some { md := md, reg := r, unit := 2, bytes := 2 }
  | .movuBReg _ _ => none
  | .movuBMem _ md r => some { md := md, reg := r, unit := 1, bytes := 1 }
  | .movuWReg _ _ => none
  | .movuWMem _ md r => some { md := md, reg := r, unit := 2, bytes := 2 }
  | .movsBReg _ _ => none
  | .movsBMem _ md r => some { md := md, reg := r, unit := 1, bytes := 1 }
  | .movsWReg _ _ => none
  | .movsWMem _ md r => some { md := md, reg := r, unit := 2, bytes := 2 }
  | .subuBReg _ _ => none
  | .subuBMem _ md r => some { md := md, reg := r, unit := 1, bytes := 1 }
  | .subuWReg _ _ => none
  | .subuWMem _ md r => some { md := md, reg := r, unit := 2, bytes := 2 }
  | .subsBReg _ _ => none
  | .subsBMem _ md r => some { md := md, reg := r, unit := 1, bytes := 1 }
  | .subsWReg _ _ => none
  | .subsWMem _ md r => some { md := md, reg := r, unit := 2, bytes := 2 }
  | .cmpuBMem _ md r => some { md := md, reg := r, unit := 1, bytes := 1 }
  | .cmpuWMem _ md r => some { md := md, reg := r, unit := 2, bytes := 2 }
  | .cmpsBMem _ md r => some { md := md, reg := r, unit := 1, bytes := 1 }
  | .cmpsWMem _ md r => some { md := md, reg := r, unit := 2, bytes := 2 }
  | .lslBReg _ _ => none
  | .lslWReg _ _ => none
  | .lslDReg _ _ => none
  | .negBReg _ _ => none
  | .negWReg _ _ => none
  | .negDReg _ _ => none
  | .asrBReg _ _ => none
  | .asrWReg _ _ => none
  | .asrDReg _ _ => none
  | .lsrBReg _ _ => none
  | .lsrWReg _ _ => none
  | .lsrDReg _ _ => none
  | .boundBReg _ _ => none
  | .boundBMem _ md r => some { md := md, reg := r, unit := 1, bytes := 1 }
  | .boundWReg _ _ => none
  | .boundWMem _ md r => some { md := md, reg := r, unit := 2, bytes := 2 }
  | .boundDReg _ _ => none
  | .boundDMem _ md r => some { md := md, reg := r, unit := 4, bytes := 4 }
  | .addBReg _ _ => none
  | .addBMem _ md r => some { md := md, reg := r, unit := 1, bytes := 1 }
  | .addWReg _ _ => none
  | .addWMem _ md r => some { md := md, reg := r, unit := 2, bytes := 2 }
  | .addDReg _ _ => none
  | .addDMem _ md r => some { md := md, reg := r, unit := 4, bytes := 4 }
  | .moveBReg _ _ => none
  | .moveBMem _ md r => some { md := md, reg := r, unit := 1, bytes := 1 }
  | .moveWReg _ _ => none
  | .moveWMem _ md r => some { md := md, reg := r, unit := 2, bytes := 2 }
  | .moveDReg _ _ => none
  | .moveDMem _ md r => some { md := md, reg := r, unit := 4, bytes := 4 }
  | .subBReg _ _ => none
  | .subBMem _ md r => some { md := md, reg := r, unit := 1, bytes := 1 }
  | .subWReg _ _ => none
  | .subWMem _ md r => some { md := md, reg := r, unit := 2, bytes := 2 }
  | .subDReg _ _ => none
  | .subDMem _ md r => some { md := md, reg := r, unit := 4, bytes := 4 }
  | .cmpBReg _ _ => none
  | .cmpBMem _ md r => some { md := md, reg := r, unit := 1, bytes := 1 }
  | .cmpWReg _ _ => none
  | .cmpWMem _ md r => some { md := md, reg := r, unit := 2, bytes := 2 }
  | .cmpDReg _ _ => none
  | .cmpDMem _ md r => some { md := md, reg := r, unit := 4, bytes := 4 }
  | .andBReg _ _ => none
  | .andBMem _ md r => some { md := md, reg := r, unit := 1, bytes := 1 }
  | .andWReg _ _ => none
  | .andWMem _ md r => some { md := md, reg := r, unit := 2, bytes := 2 }
  | .andDReg _ _ => none
  | .andDMem _ md r => some { md := md, reg := r, unit := 4, bytes := 4 }
  | .orBReg _ _ => none
  | .orBMem _ md r => some { md := md, reg := r, unit := 1, bytes := 1 }
  | .orWReg _ _ => none
  | .orWMem _ md r => some { md := md, reg := r, unit := 2, bytes := 2 }
  | .orDReg _ _ => none
  | .orDMem _ md r => some { md := md, reg := r, unit := 4, bytes := 4 }
  | .addiB _ _ => none
  | .addiW _ _ => none
  | .addiD _ _ => none
  | .biapB _ _ => none
  | .biapW _ _ => none
  | .biapD _ _ => none
  | .nop => none
  | .btst _ _ => none
  | .scc _ _ => none
  | .setf _ => none
  | .clearf _ => none
  | .moveToSpecial _ _ => none
  | .moveFromSpecial _ _ => none
  | .abs _ _ => none
  | .dstep _ _ => none
  | .lz _ _ => none
  | .swap _ _ => none
  | .xor _ _ => none
  | .mstep _ _ => none
  | .mulsB _ _ => none
  | .mulsW _ _ => none
  | .mulsD _ _ => none
  | .muluB _ _ => none
  | .muluW _ _ => none
  | .muluD _ _ => none
  | .bdapB _ md r => some { md := md, reg := r, unit := 1, bytes := 1 }
  | .bdapW _ md r => some { md := md, reg := r, unit := 2, bytes := 2 }
  | .bdapD _ md r => some { md := md, reg := r, unit := 4, bytes := 4 }
  | .testBMem md r => some { md := md, reg := r, unit := 1, bytes := 1 }
  | .testWMem md r => some { md := md, reg := r, unit := 2, bytes := 2 }
  | .testDMem md r => some { md := md, reg := r, unit := 4, bytes := 4 }
  | .moveBStore _ md d => some { md := md, reg := d, unit := 1, bytes := 1 }
  | .moveWStore _ md d => some { md := md, reg := d, unit := 2, bytes := 2 }
  | .moveDStore _ md d => some { md := md, reg := d, unit := 4, bytes := 4 }
  | .jump md r => some { md := md, reg := r, unit := 4, bytes := 4 }
  | .jumpReg _ => none
  | .jirc md r => some { md := md, reg := r, unit := 4, bytes := 4 }
  | .jircReg _ => none
  | .jsrc md r => some { md := md, reg := r, unit := 4, bytes := 4 }
  | .jsrcReg _ => none
  | .jbrc md r => some { md := md, reg := r, unit := 4, bytes := 4 }
  | .jbrcReg _ => none
  | .jmpu md r => some { md := md, reg := r, unit := 4, bytes := 4 }
  | .jir md r => some { md := md, reg := r, unit := 4, bytes := 4 }
  | .jirReg _ => none
  | .jsr md r => some { md := md, reg := r, unit := 4, bytes := 4 }
  | .jsrReg _ => none
  | .breakN _ => none
  | .dip md r => some { md := md, reg := r, unit := 4, bytes := 4 }
  | .bcc16 _ => some { md := true, reg := 15#4, unit := 2, bytes := 2 }
  | .moveToSpecialMem p md r => (sregSize p).map fun z => { md := md, reg := r, unit := sizeBytes z, bytes := sizeBytes z }
  | .moveFromSpecialMem p md d => (sregSize p).map fun z => { md := md, reg := d, unit := sizeBytes z, bytes := sizeBytes z }
  | .rbf md r => some { md := md, reg := r, unit := 4, bytes := 16 }
  | .sbfs md d => some { md := md, reg := d, unit := 4, bytes := 16 }
  | .movemLoad d md r => some { md := md, reg := r, unit := 4, bytes := (4 * (d.toNat + 1)) }
  | .movemStore r md d => some { md := md, reg := d, unit := 4, bytes := (4 * (r.toNat + 1)) }
  | .clearBReg _ => none
  | .clearBMem md d => some { md := md, reg := d, unit := 1, bytes := 1 }
  | .clearWReg _ => none
  | .clearWMem md d => some { md := md, reg := d, unit := 2, bytes := 2 }
  | .clearDReg _ => none
  | .clearDMem md d => some { md := md, reg := d, unit := 4, bytes := 4 }
  | .ret => none
  | .retb => none
  | .reti => none
  | .notReg _ => none
  | .ax => none
  | .ei => none
  | .di => none
  | .popReg _ => some { md := true, reg := 14#4, unit := 4, bytes := 4 }
  | .popSpecial p => (sregSize p).map fun z => { md := true, reg := 14#4, unit := sizeBytes z, bytes := sizeBytes z }
  | .pushReg _ => some { md := true, reg := 14#4, unit := 4, bytes := 4 }
  | .pushSpecial p => (sregSize p).map fun z => { md := true, reg := 14#4, unit := sizeBytes z, bytes := sizeBytes z }
  | .testBReg _ => none
  | .testWReg _ => none
  | .testDReg _ => none
  | .reserved _ => none
  | .unlisted _ => none
  | .tableNote => none

/-- RBF: read the record, update the address register, load X and U, go to user mode if U was 1, and restart what the
record describes (45_jump_branch.md R431, 60_exceptions.md R490). In the slot of a taken transfer it is U14. -/
def execRbf (md : Bool) (r : RegNo) (s : State) : Host.Outcome State Fault Refusal :=
  if s.delay.isSome then .refused .forbiddenInDelaySlot
  else match operandRefusal md r s with
  | some x => .refused x
  | none =>
    let a := operandAddress r s
    (loadRecord { word := encode (.rbf md r), endPc := endAddress md r 16 s } (isInline md r s) (restartCycle s) a s).finish
      fun rec s' =>
        restart (memoryForm (decodeWord rec.instr)) rec (restoreMode rec (updateAddress md r 16 a s'))

/-- `SBFS` (45_jump_branch.md R430). -/
def execSbfs (md : Bool) (d : RegNo) (s : State) : Host.Outcome State Fault Refusal :=
  saveStatus (encode (.sbfs md d)) md d s

end Sys2Proof.Machine
end

