-- ==== Sys2Proof/Machine/Control.lean ====
section
/-! DEFINITION. Sys2Proof/Machine/Control.lean: the meanings of the branches, jumps, returns and BREAK (45_jump_branch.md). -/

namespace Sys2Proof.Machine

/-- BREAK n: supervisor mode, U the old mode, F set, BRP the next address, and on at IBR + 8n without a vector read; no
window (45_jump_branch.md R415, 60_exceptions.md R455, R500). -/
def execBreakN (n : BitVec 4) (s : State) : Host.Outcome State Fault Refusal :=
  match transferRefusal s with
  | some x => .refused x
  | none =>
    let s' := enterSupervisor s
    complete (ending (pcPlus2 s) (.jump (ibrValue s + (n.setWidth 32 <<< 3))) false)
      { s' with sregs := { s'.sregs with brp := pcPlus2 s } }

/-- `Bcc_o` (45_jump_branch.md R401). -/
def execBcc (c : Cond) (o : BitVec 8) (s : State) : Host.Outcome State Fault Refusal :=
  branchShort c o s

/-- `JUMP` (45_jump_branch.md R407). -/
def execJump (md : Bool) (r : RegNo) (s : State) : Host.Outcome State Fault Refusal :=
  jumpMem kindJump (encode (.jump md r)) md r s

/-- `JUMP_Rs` (45_jump_branch.md R407). -/
def execJumpReg (r : RegNo) (s : State) : Host.Outcome State Fault Refusal :=
  jumpReg kindJump r s

/-- `JIRC` (45_jump_branch.md R412, R413). -/
def execJirc (md : Bool) (r : RegNo) (s : State) : Host.Outcome State Fault Refusal :=
  jumpMem kindJirc (encode (.jirc md r)) md r s

/-- `JIRC_Rs` (45_jump_branch.md R412, R413). -/
def execJircReg (r : RegNo) (s : State) : Host.Outcome State Fault Refusal :=
  jumpReg kindJirc r s

/-- `JSRC` (45_jump_branch.md R411, R413). -/
def execJsrc (md : Bool) (r : RegNo) (s : State) : Host.Outcome State Fault Refusal :=
  jumpMem kindJsrc (encode (.jsrc md r)) md r s

/-- `JSRC_Rs` (45_jump_branch.md R411, R413). -/
def execJsrcReg (r : RegNo) (s : State) : Host.Outcome State Fault Refusal :=
  jumpReg kindJsrc r s

/-- `JBRC` (45_jump_branch.md R412, R413). -/
def execJbrc (md : Bool) (r : RegNo) (s : State) : Host.Outcome State Fault Refusal :=
  jumpMem kindJbrc (encode (.jbrc md r)) md r s

/-- `JBRC_Rs` (45_jump_branch.md R412, R413). -/
def execJbrcReg (r : RegNo) (s : State) : Host.Outcome State Fault Refusal :=
  jumpReg kindJbrc r s

/-- `JMPU` (45_jump_branch.md R408). -/
def execJmpu (md : Bool) (r : RegNo) (s : State) : Host.Outcome State Fault Refusal :=
  jumpMem kindJmpu (encode (.jmpu md r)) md r s

/-- `JIR` (45_jump_branch.md R410). -/
def execJir (md : Bool) (r : RegNo) (s : State) : Host.Outcome State Fault Refusal :=
  jumpMem kindJir (encode (.jir md r)) md r s

/-- `JIR_Rs` (45_jump_branch.md R410). -/
def execJirReg (r : RegNo) (s : State) : Host.Outcome State Fault Refusal :=
  jumpReg kindJir r s

/-- `JSR` (45_jump_branch.md R409). -/
def execJsr (md : Bool) (r : RegNo) (s : State) : Host.Outcome State Fault Refusal :=
  jumpMem kindJsr (encode (.jsr md r)) md r s

/-- `JSR_Rs` (45_jump_branch.md R409). -/
def execJsrReg (r : RegNo) (s : State) : Host.Outcome State Fault Refusal :=
  jumpReg kindJsr r s

/-- `Bcc_xx` (45_jump_branch.md R402). -/
def execBcc16 (c : Cond) (s : State) : Host.Outcome State Fault Refusal :=
  branchLong (encode (.bcc16 c)) c s

/-- `RET` (45_jump_branch.md R422: MOVE SRP,PC). -/
def execRet (s : State) : Host.Outcome State Fault Refusal :=
  moveFromSregReg .srp 15#4 s

/-- `RETB` (45_jump_branch.md R423: MOVE BRP,PC). -/
def execRetb (s : State) : Host.Outcome State Fault Refusal :=
  moveFromSregReg .brp 15#4 s

/-- `RETI` (45_jump_branch.md R424: MOVE IRP,PC). -/
def execReti (s : State) : Host.Outcome State Fault Refusal :=
  moveFromSregReg .irp 15#4 s

end Sys2Proof.Machine
end

