-- ==== Sys2Proof/Machine/FlagOps.lean ====
section
/-! DEFINITION. Sys2Proof/Machine/FlagOps.lean: the meanings of the flag instructions and NOP (44_flags_nop.md). -/

namespace Sys2Proof.Machine

/-- The end of a flag instruction: it opens the window; X stays as the instruction left it (44_flags_nop.md R381, R382). A
pending prefix is U5. -/
def flagOp (g : Flags → Flags) (s : State) : Host.Outcome State Fault Refusal :=
  if s.prefixAddr.isSome then .refused .prefixUnusable
  else complete { seq := pcPlus2 s, transfer := .none, window := true, keepX := true } { s with flags := g s.flags }

/-- SETF (44_flags_nop.md R381). -/
def execSetf (k : BitVec 8) (s : State) : Host.Outcome State Fault Refusal := flagOp (setFlagList s.mode k) s

/-- CLEARF (44_flags_nop.md R382). -/
def execClearf (k : BitVec 8) (s : State) : Host.Outcome State Fault Refusal := flagOp (clearFlagList s.mode k) s

/-- AX, SETF with mask 0x10 (44_flags_nop.md R383). -/
def execAx (s : State) : Host.Outcome State Fault Refusal := flagOp (setFlagList s.mode 0x10#8) s

/-- EI, SETF with mask 0x20 (44_flags_nop.md R384). -/
def execEi (s : State) : Host.Outcome State Fault Refusal := flagOp (setFlagList s.mode 0x20#8) s

/-- DI, CLEARF with mask 0x20 (44_flags_nop.md R385). -/
def execDi (s : State) : Host.Outcome State Fault Refusal := flagOp (clearFlagList s.mode 0x20#8) s

/-- NOP: X is cleared, nothing else (44_flags_nop.md R386). A pending prefix is U5. -/
def execNop (s : State) : Host.Outcome State Fault Refusal :=
  if s.prefixAddr.isSome then .refused .prefixUnusable else complete (ending (pcPlus2 s) .none false) s

end Sys2Proof.Machine
end

