-- ==== Sys2Proof/Machine/Logic.lean ====
section
/-! DEFINITION. Sys2Proof/Machine/Logic.lean: the meanings of the logical, shift and bit test instructions (43_logic_shift_bit.md). -/

namespace Sys2Proof.Machine

/-- `ANDQ_i_Rd` (43_logic_shift_bit.md R344). -/
def execAndq (d : RegNo) (i : BitVec 6) (s : State) : Host.Outcome State Fault Refusal :=
  aluCore (formUpdate .dword) (calcAnd .dword) d (i.signExtend 32) s

/-- `ORQ_i_Rd` (43_logic_shift_bit.md R347). -/
def execOrq (d : RegNo) (i : BitVec 6) (s : State) : Host.Outcome State Fault Refusal :=
  aluCore (formUpdate .dword) (calcOr .dword) d (i.signExtend 32) s

/-- `BTSTQ_c_Rd` (43_logic_shift_bit.md R356). -/
def execBtstq (d : RegNo) (c : BitVec 5) (s : State) : Host.Outcome State Fault Refusal :=
  aluCore (formCompare .dword) calcBtst d (c.setWidth 32) s

/-- `ASRQ_c_Rd` (43_logic_shift_bit.md R350). -/
def execAsrq (d : RegNo) (c : BitVec 5) (s : State) : Host.Outcome State Fault Refusal :=
  aluCore (formUpdate .dword) (calcAsr .dword) d (c.setWidth 32) s

/-- `LSLQ_c_Rd` (43_logic_shift_bit.md R352). -/
def execLslq (d : RegNo) (c : BitVec 5) (s : State) : Host.Outcome State Fault Refusal :=
  aluCore (formUpdateNoPc .dword) (calcLsl .dword) d (c.setWidth 32) s

/-- `LSRQ_c_Rd` (43_logic_shift_bit.md R354). -/
def execLsrq (d : RegNo) (c : BitVec 5) (s : State) : Host.Outcome State Fault Refusal :=
  aluCore (formUpdateNoPc .dword) (calcLsr .dword) d (c.setWidth 32) s

/-- `LSL.B_Rs_Rd` (43_logic_shift_bit.md R351). -/
def execLslBReg (d : RegNo) (r : RegNo) (s : State) : Host.Outcome State Fault Refusal :=
  aluReg (formUpdateNoPc .byte) (calcLsl .byte) d r s

/-- `LSL.W_Rs_Rd` (43_logic_shift_bit.md R351). -/
def execLslWReg (d : RegNo) (r : RegNo) (s : State) : Host.Outcome State Fault Refusal :=
  aluReg (formUpdateNoPc .word) (calcLsl .word) d r s

/-- `LSL.D_Rs_Rd` (43_logic_shift_bit.md R351). -/
def execLslDReg (d : RegNo) (r : RegNo) (s : State) : Host.Outcome State Fault Refusal :=
  aluReg (formUpdateNoPc .dword) (calcLsl .dword) d r s

/-- `ASR.B_Rs_Rd` (43_logic_shift_bit.md R349). -/
def execAsrBReg (d : RegNo) (r : RegNo) (s : State) : Host.Outcome State Fault Refusal :=
  aluReg (formUpdate .byte) (calcAsr .byte) d r s

/-- `ASR.W_Rs_Rd` (43_logic_shift_bit.md R349). -/
def execAsrWReg (d : RegNo) (r : RegNo) (s : State) : Host.Outcome State Fault Refusal :=
  aluReg (formUpdate .word) (calcAsr .word) d r s

/-- `ASR.D_Rs_Rd` (43_logic_shift_bit.md R349). -/
def execAsrDReg (d : RegNo) (r : RegNo) (s : State) : Host.Outcome State Fault Refusal :=
  aluReg (formUpdate .dword) (calcAsr .dword) d r s

/-- `LSR.B_Rs_Rd` (43_logic_shift_bit.md R353). -/
def execLsrBReg (d : RegNo) (r : RegNo) (s : State) : Host.Outcome State Fault Refusal :=
  aluReg (formUpdateNoPc .byte) (calcLsr .byte) d r s

/-- `LSR.W_Rs_Rd` (43_logic_shift_bit.md R353). -/
def execLsrWReg (d : RegNo) (r : RegNo) (s : State) : Host.Outcome State Fault Refusal :=
  aluReg (formUpdateNoPc .word) (calcLsr .word) d r s

/-- `LSR.D_Rs_Rd` (43_logic_shift_bit.md R353). -/
def execLsrDReg (d : RegNo) (r : RegNo) (s : State) : Host.Outcome State Fault Refusal :=
  aluReg (formUpdateNoPc .dword) (calcLsr .dword) d r s

/-- `AND.B_Rs_Rd` (43_logic_shift_bit.md R343). -/
def execAndBReg (d : RegNo) (r : RegNo) (s : State) : Host.Outcome State Fault Refusal :=
  aluReg (formSized .byte) (calcAnd .byte) d r s

/-- `AND.B_____Rd` (43_logic_shift_bit.md R343). -/
def execAndBMem (d : RegNo) (md : Bool) (r : RegNo) (s : State) : Host.Outcome State Fault Refusal :=
  aluMem (formSized .byte) (calcAnd .byte) (encode (.andBMem d md r)) d md r s

/-- `AND.W_Rs_Rd` (43_logic_shift_bit.md R343). -/
def execAndWReg (d : RegNo) (r : RegNo) (s : State) : Host.Outcome State Fault Refusal :=
  aluReg (formSized .word) (calcAnd .word) d r s

/-- `AND.W_____Rd` (43_logic_shift_bit.md R343). -/
def execAndWMem (d : RegNo) (md : Bool) (r : RegNo) (s : State) : Host.Outcome State Fault Refusal :=
  aluMem (formSized .word) (calcAnd .word) (encode (.andWMem d md r)) d md r s

/-- `AND.D_Rs_Rd` (43_logic_shift_bit.md R343). -/
def execAndDReg (d : RegNo) (r : RegNo) (s : State) : Host.Outcome State Fault Refusal :=
  aluReg (formSized .dword) (calcAnd .dword) d r s

/-- `AND.D_____Rd` (43_logic_shift_bit.md R343). -/
def execAndDMem (d : RegNo) (md : Bool) (r : RegNo) (s : State) : Host.Outcome State Fault Refusal :=
  aluMem (formSized .dword) (calcAnd .dword) (encode (.andDMem d md r)) d md r s

/-- `OR.B_Rs_Rd` (43_logic_shift_bit.md R346). -/
def execOrBReg (d : RegNo) (r : RegNo) (s : State) : Host.Outcome State Fault Refusal :=
  aluReg (formSized .byte) (calcOr .byte) d r s

/-- `OR.B_____Rd` (43_logic_shift_bit.md R346). -/
def execOrBMem (d : RegNo) (md : Bool) (r : RegNo) (s : State) : Host.Outcome State Fault Refusal :=
  aluMem (formSized .byte) (calcOr .byte) (encode (.orBMem d md r)) d md r s

/-- `OR.W_Rs_Rd` (43_logic_shift_bit.md R346). -/
def execOrWReg (d : RegNo) (r : RegNo) (s : State) : Host.Outcome State Fault Refusal :=
  aluReg (formSized .word) (calcOr .word) d r s

/-- `OR.W_____Rd` (43_logic_shift_bit.md R346). -/
def execOrWMem (d : RegNo) (md : Bool) (r : RegNo) (s : State) : Host.Outcome State Fault Refusal :=
  aluMem (formSized .word) (calcOr .word) (encode (.orWMem d md r)) d md r s

/-- `OR.D_Rs_Rd` (43_logic_shift_bit.md R346). -/
def execOrDReg (d : RegNo) (r : RegNo) (s : State) : Host.Outcome State Fault Refusal :=
  aluReg (formSized .dword) (calcOr .dword) d r s

/-- `OR.D_____Rd` (43_logic_shift_bit.md R346). -/
def execOrDMem (d : RegNo) (md : Bool) (r : RegNo) (s : State) : Host.Outcome State Fault Refusal :=
  aluMem (formSized .dword) (calcOr .dword) (encode (.orDMem d md r)) d md r s

/-- `BTST_Rs_Rd` (43_logic_shift_bit.md R355). -/
def execBtst (d : RegNo) (r : RegNo) (s : State) : Host.Outcome State Fault Refusal :=
  aluReg (formCompare .dword) calcBtst d r s

/-- `LZ_Rs_Rd` (43_logic_shift_bit.md R357). -/
def execLz (d : RegNo) (r : RegNo) (s : State) : Host.Outcome State Fault Refusal :=
  aluReg (formMove .dword) calcLz d r s

/-- `XOR_Rs_Rd` (43_logic_shift_bit.md R348). -/
def execXor (d : RegNo) (r : RegNo) (s : State) : Host.Outcome State Fault Refusal :=
  aluReg (formUpdate .dword) calcXor d r s

/-- `NOT_Rd` (43_logic_shift_bit.md R345: SWAP with option N). -/
def execNotReg (d : RegNo) (s : State) : Host.Outcome State Fault Refusal :=
  aluCore (formUpdateNoPc .dword) calcSwap d 8#32 s

end Sys2Proof.Machine
end

