-- ==== Sys2Proof/Machine/Transfer.lean ====
section
/-! DEFINITION. Sys2Proof/Machine/Transfer.lean: the meanings of the data transfer instructions (41_data_transfer.md). -/

namespace Sys2Proof.Machine

/-- `MOVEQ_i_Rd` (41_data_transfer.md R250). -/
def execMoveq (d : RegNo) (i : BitVec 6) (s : State) : Host.Outcome State Fault Refusal :=
  aluCore (formMove .dword) (calcMove .dword) d (i.signExtend 32) s

/-- `MOVU.B_Rs_Rd` (41_data_transfer.md R252). -/
def execMovuBReg (d : RegNo) (r : RegNo) (s : State) : Host.Outcome State Fault Refusal :=
  aluReg (formMoveUnsigned .byte) calcMovu d r s

/-- `MOVU.B_____Rd` (41_data_transfer.md R252). -/
def execMovuBMem (d : RegNo) (md : Bool) (r : RegNo) (s : State) : Host.Outcome State Fault Refusal :=
  aluMem (formMoveUnsigned .byte) calcMovu (encode (.movuBMem d md r)) d md r s

/-- `MOVU.W_Rs_Rd` (41_data_transfer.md R252). -/
def execMovuWReg (d : RegNo) (r : RegNo) (s : State) : Host.Outcome State Fault Refusal :=
  aluReg (formMoveUnsigned .word) calcMovu d r s

/-- `MOVU.W_____Rd` (41_data_transfer.md R252). -/
def execMovuWMem (d : RegNo) (md : Bool) (r : RegNo) (s : State) : Host.Outcome State Fault Refusal :=
  aluMem (formMoveUnsigned .word) calcMovu (encode (.movuWMem d md r)) d md r s

/-- `MOVS.B_Rs_Rd` (41_data_transfer.md R251). -/
def execMovsBReg (d : RegNo) (r : RegNo) (s : State) : Host.Outcome State Fault Refusal :=
  aluReg (formMoveSigned .byte) (calcMove .dword) d r s

/-- `MOVS.B_____Rd` (41_data_transfer.md R251). -/
def execMovsBMem (d : RegNo) (md : Bool) (r : RegNo) (s : State) : Host.Outcome State Fault Refusal :=
  aluMem (formMoveSigned .byte) (calcMove .dword) (encode (.movsBMem d md r)) d md r s

/-- `MOVS.W_Rs_Rd` (41_data_transfer.md R251). -/
def execMovsWReg (d : RegNo) (r : RegNo) (s : State) : Host.Outcome State Fault Refusal :=
  aluReg (formMoveSigned .word) (calcMove .dword) d r s

/-- `MOVS.W_____Rd` (41_data_transfer.md R251). -/
def execMovsWMem (d : RegNo) (md : Bool) (r : RegNo) (s : State) : Host.Outcome State Fault Refusal :=
  aluMem (formMoveSigned .word) (calcMove .dword) (encode (.movsWMem d md r)) d md r s

/-- `MOVE.B_Rs_Rd` (41_data_transfer.md R244). -/
def execMoveBReg (d : RegNo) (r : RegNo) (s : State) : Host.Outcome State Fault Refusal :=
  aluReg (formMove .byte) (calcMove .byte) d r s

/-- `MOVE.B_____Rd` (41_data_transfer.md R244). -/
def execMoveBMem (d : RegNo) (md : Bool) (r : RegNo) (s : State) : Host.Outcome State Fault Refusal :=
  aluMem (formMove .byte) (calcMove .byte) (encode (.moveBMem d md r)) d md r s

/-- `MOVE.W_Rs_Rd` (41_data_transfer.md R244). -/
def execMoveWReg (d : RegNo) (r : RegNo) (s : State) : Host.Outcome State Fault Refusal :=
  aluReg (formMove .word) (calcMove .word) d r s

/-- `MOVE.W_____Rd` (41_data_transfer.md R244). -/
def execMoveWMem (d : RegNo) (md : Bool) (r : RegNo) (s : State) : Host.Outcome State Fault Refusal :=
  aluMem (formMove .word) (calcMove .word) (encode (.moveWMem d md r)) d md r s

/-- `MOVE.D_Rs_Rd` (41_data_transfer.md R244). -/
def execMoveDReg (d : RegNo) (r : RegNo) (s : State) : Host.Outcome State Fault Refusal :=
  aluReg (formMove .dword) (calcMove .dword) d r s

/-- `MOVE.D_____Rd` (41_data_transfer.md R244). -/
def execMoveDMem (d : RegNo) (md : Bool) (r : RegNo) (s : State) : Host.Outcome State Fault Refusal :=
  aluMem (formMove .dword) (calcMove .dword) (encode (.moveDMem d md r)) d md r s

/-- `Scc_Rd` (41_data_transfer.md R261). -/
def execScc (c : Cond) (d : RegNo) (s : State) : Host.Outcome State Fault Refusal :=
  aluCore formScc (calcScc c) d 0#32 s

/-- `MOVE_Rs_Pd` (41_data_transfer.md R246, R247). -/
def execMoveToSpecial (p : SReg) (r : RegNo) (s : State) : Host.Outcome State Fault Refusal :=
  moveToSregReg p r s

/-- `MOVE_Ps_Rd` (41_data_transfer.md R248, R249). -/
def execMoveFromSpecial (p : SReg) (d : RegNo) (s : State) : Host.Outcome State Fault Refusal :=
  moveFromSregReg p d s

/-- `SWAP_opt__Rd` (41_data_transfer.md R260). -/
def execSwap (o : BitVec 4) (d : RegNo) (s : State) : Host.Outcome State Fault Refusal :=
  aluCore (formUpdateNoPc .dword) calcSwap d (o.setWidth 32) s

/-- `MOVE.B_Rs` (41_data_transfer.md R245). -/
def execMoveBStore (r : RegNo) (md : Bool) (d : RegNo) (s : State) : Host.Outcome State Fault Refusal :=
  storeReg .byte (encode (.moveBStore r md d)) r md d s

/-- `MOVE.W_Rs` (41_data_transfer.md R245). -/
def execMoveWStore (r : RegNo) (md : Bool) (d : RegNo) (s : State) : Host.Outcome State Fault Refusal :=
  storeReg .word (encode (.moveWStore r md d)) r md d s

/-- `MOVE.D_Rs` (41_data_transfer.md R245). -/
def execMoveDStore (r : RegNo) (md : Bool) (d : RegNo) (s : State) : Host.Outcome State Fault Refusal :=
  storeReg .dword (encode (.moveDStore r md d)) r md d s

/-- `MOVE_____Pd` (41_data_transfer.md R246, R247). -/
def execMoveToSpecialMem (p : SReg) (md : Bool) (r : RegNo) (s : State) : Host.Outcome State Fault Refusal :=
  moveToSregMem (encode (.moveToSpecialMem p md r)) p md r s

/-- `MOVE_Ps` (41_data_transfer.md R248). -/
def execMoveFromSpecialMem (p : SReg) (md : Bool) (d : RegNo) (s : State) : Host.Outcome State Fault Refusal :=
  moveFromSregMem (encode (.moveFromSpecialMem p md d)) p md d s

/-- `MOVEM_____Rd` (41_data_transfer.md R253, R254). -/
def execMovemLoad (d : RegNo) (md : Bool) (r : RegNo) (s : State) : Host.Outcome State Fault Refusal :=
  movemLoadOp (encode (.movemLoad d md r)) d md r s

/-- `MOVEM_Rs` (41_data_transfer.md R253, R255). -/
def execMovemStore (r : RegNo) (md : Bool) (d : RegNo) (s : State) : Host.Outcome State Fault Refusal :=
  movemStoreOp (encode (.movemStore r md d)) r md d s

/-- `CLEAR.B_Rd` (41_data_transfer.md R240). -/
def execClearBReg (d : RegNo) (s : State) : Host.Outcome State Fault Refusal :=
  moveFromSregReg .p0 d s

/-- `CLEAR.B` (41_data_transfer.md R240). -/
def execClearBMem (md : Bool) (d : RegNo) (s : State) : Host.Outcome State Fault Refusal :=
  moveFromSregMem (encode (.clearBMem md d)) .p0 md d s

/-- `CLEAR.W_Rd` (41_data_transfer.md R240). -/
def execClearWReg (d : RegNo) (s : State) : Host.Outcome State Fault Refusal :=
  moveFromSregReg .p4 d s

/-- `CLEAR.W` (41_data_transfer.md R240). -/
def execClearWMem (md : Bool) (d : RegNo) (s : State) : Host.Outcome State Fault Refusal :=
  moveFromSregMem (encode (.clearWMem md d)) .p4 md d s

/-- `CLEAR.D_Rd` (41_data_transfer.md R240). -/
def execClearDReg (d : RegNo) (s : State) : Host.Outcome State Fault Refusal :=
  moveFromSregReg .p8 d s

/-- `CLEAR.D` (41_data_transfer.md R240). -/
def execClearDMem (md : Bool) (d : RegNo) (s : State) : Host.Outcome State Fault Refusal :=
  moveFromSregMem (encode (.clearDMem md d)) .p8 md d s

/-- `POP_Rd` (41_data_transfer.md R256). -/
def execPopReg (d : RegNo) (s : State) : Host.Outcome State Fault Refusal :=
  aluMem (formMove .dword) (calcMove .dword) (encode (.popReg d)) d true 14#4 s

/-- `POP_Pd` (41_data_transfer.md R257). -/
def execPopSpecial (p : SReg) (s : State) : Host.Outcome State Fault Refusal :=
  moveToSregMem (encode (.popSpecial p)) p true 14#4 s

/-- `PUSH_Rs` (41_data_transfer.md R258, the second word: with a pending prefix MOVE.D Rs,[SP=...], without one MOVE.D Rs,[SP+]). -/
def execPushReg (r : RegNo) (s : State) : Host.Outcome State Fault Refusal :=
  storeReg .dword (encode (.pushReg r)) r true 14#4 s

/-- `PUSH_Ps` (41_data_transfer.md R259, the second word: with a pending prefix MOVE Ps,[SP=...], without one MOVE Ps,[SP+]). -/
def execPushSpecial (p : SReg) (s : State) : Host.Outcome State Fault Refusal :=
  moveFromSregMem (encode (.pushSpecial p)) p true 14#4 s

end Sys2Proof.Machine
end

