-- ==== Sys2Proof/Machine/Unlisted.lean ====
section
/-! DEFINITION. Sys2Proof/Machine/Unlisted.lean: the meanings of the words that are no instruction (30_encoding.md R153, R154). -/

namespace Sys2Proof.Machine

/-- A word marked "(Reserved)" (30_encoding.md R153, R154; U1). -/
def execReserved (w : Half) (_s : State) : Host.Outcome State Fault Refusal := .refused (.reservedEncoding w)

/-- A word in no table (30_encoding.md R153, R154; U1). -/
def execUnlisted (w : Half) (_s : State) : Host.Outcome State Fault Refusal := .refused (.unlistedEncoding w)

/-- The explanatory row of the opcode table: no word decodes to it. -/
def execTableNote (_s : State) : Host.Outcome State Fault Refusal := .refused .notAnInstruction

end Sys2Proof.Machine
end

