-- ==== Sys2Proof/Machine/Dispatch.lean ====
section
/-! DEFINITION. Sys2Proof/Machine/Dispatch.lean: one arm per instruction, each one call of its meaning. -/

namespace Sys2Proof.Machine

def exec (i : Instr) (s : State) : Host.Outcome State Fault Refusal :=
  match i with
  | .bcc c o => Sys2Proof.Machine.execBcc c o s
  | .bdapByte b o => Sys2Proof.Machine.execBdapByte b o s
  | .addq d j => Sys2Proof.Machine.execAddq d j s
  | .moveq d k => Sys2Proof.Machine.execMoveq d k s
  | .subq d j => Sys2Proof.Machine.execSubq d j s
  | .cmpq d k => Sys2Proof.Machine.execCmpq d k s
  | .andq d k => Sys2Proof.Machine.execAndq d k s
  | .orq d k => Sys2Proof.Machine.execOrq d k s
  | .btstq d c => Sys2Proof.Machine.execBtstq d c s
  | .asrq d c => Sys2Proof.Machine.execAsrq d c s
  | .lslq d c => Sys2Proof.Machine.execLslq d c s
  | .lsrq d c => Sys2Proof.Machine.execLsrq d c s
  | .adduBReg d r => Sys2Proof.Machine.execAdduBReg d r s
  | .adduBMem d md r => Sys2Proof.Machine.execAdduBMem d md r s
  | .adduWReg d r => Sys2Proof.Machine.execAdduWReg d r s
  | .adduWMem d md r => Sys2Proof.Machine.execAdduWMem d md r s
  | .addsBReg d r => Sys2Proof.Machine.execAddsBReg d r s
  | .addsBMem d md r => Sys2Proof.Machine.execAddsBMem d md r s
  | .addsWReg d r => Sys2Proof.Machine.execAddsWReg d r s
  | .addsWMem d md r => Sys2Proof.Machine.execAddsWMem d md r s
  | .movuBReg d r => Sys2Proof.Machine.execMovuBReg d r s
  | .movuBMem d md r => Sys2Proof.Machine.execMovuBMem d md r s
  | .movuWReg d r => Sys2Proof.Machine.execMovuWReg d r s
  | .movuWMem d md r => Sys2Proof.Machine.execMovuWMem d md r s
  | .movsBReg d r => Sys2Proof.Machine.execMovsBReg d r s
  | .movsBMem d md r => Sys2Proof.Machine.execMovsBMem d md r s
  | .movsWReg d r => Sys2Proof.Machine.execMovsWReg d r s
  | .movsWMem d md r => Sys2Proof.Machine.execMovsWMem d md r s
  | .subuBReg d r => Sys2Proof.Machine.execSubuBReg d r s
  | .subuBMem d md r => Sys2Proof.Machine.execSubuBMem d md r s
  | .subuWReg d r => Sys2Proof.Machine.execSubuWReg d r s
  | .subuWMem d md r => Sys2Proof.Machine.execSubuWMem d md r s
  | .subsBReg d r => Sys2Proof.Machine.execSubsBReg d r s
  | .subsBMem d md r => Sys2Proof.Machine.execSubsBMem d md r s
  | .subsWReg d r => Sys2Proof.Machine.execSubsWReg d r s
  | .subsWMem d md r => Sys2Proof.Machine.execSubsWMem d md r s
  | .cmpuBMem d md r => Sys2Proof.Machine.execCmpuBMem d md r s
  | .cmpuWMem d md r => Sys2Proof.Machine.execCmpuWMem d md r s
  | .cmpsBMem d md r => Sys2Proof.Machine.execCmpsBMem d md r s
  | .cmpsWMem d md r => Sys2Proof.Machine.execCmpsWMem d md r s
  | .lslBReg d r => Sys2Proof.Machine.execLslBReg d r s
  | .lslWReg d r => Sys2Proof.Machine.execLslWReg d r s
  | .lslDReg d r => Sys2Proof.Machine.execLslDReg d r s
  | .negBReg d r => Sys2Proof.Machine.execNegBReg d r s
  | .negWReg d r => Sys2Proof.Machine.execNegWReg d r s
  | .negDReg d r => Sys2Proof.Machine.execNegDReg d r s
  | .asrBReg d r => Sys2Proof.Machine.execAsrBReg d r s
  | .asrWReg d r => Sys2Proof.Machine.execAsrWReg d r s
  | .asrDReg d r => Sys2Proof.Machine.execAsrDReg d r s
  | .lsrBReg d r => Sys2Proof.Machine.execLsrBReg d r s
  | .lsrWReg d r => Sys2Proof.Machine.execLsrWReg d r s
  | .lsrDReg d r => Sys2Proof.Machine.execLsrDReg d r s
  | .boundBReg d r => Sys2Proof.Machine.execBoundBReg d r s
  | .boundBMem d md r => Sys2Proof.Machine.execBoundBMem d md r s
  | .boundWReg d r => Sys2Proof.Machine.execBoundWReg d r s
  | .boundWMem d md r => Sys2Proof.Machine.execBoundWMem d md r s
  | .boundDReg d r => Sys2Proof.Machine.execBoundDReg d r s
  | .boundDMem d md r => Sys2Proof.Machine.execBoundDMem d md r s
  | .addBReg d r => Sys2Proof.Machine.execAddBReg d r s
  | .addBMem d md r => Sys2Proof.Machine.execAddBMem d md r s
  | .addWReg d r => Sys2Proof.Machine.execAddWReg d r s
  | .addWMem d md r => Sys2Proof.Machine.execAddWMem d md r s
  | .addDReg d r => Sys2Proof.Machine.execAddDReg d r s
  | .addDMem d md r => Sys2Proof.Machine.execAddDMem d md r s
  | .moveBReg d r => Sys2Proof.Machine.execMoveBReg d r s
  | .moveBMem d md r => Sys2Proof.Machine.execMoveBMem d md r s
  | .moveWReg d r => Sys2Proof.Machine.execMoveWReg d r s
  | .moveWMem d md r => Sys2Proof.Machine.execMoveWMem d md r s
  | .moveDReg d r => Sys2Proof.Machine.execMoveDReg d r s
  | .moveDMem d md r => Sys2Proof.Machine.execMoveDMem d md r s
  | .subBReg d r => Sys2Proof.Machine.execSubBReg d r s
  | .subBMem d md r => Sys2Proof.Machine.execSubBMem d md r s
  | .subWReg d r => Sys2Proof.Machine.execSubWReg d r s
  | .subWMem d md r => Sys2Proof.Machine.execSubWMem d md r s
  | .subDReg d r => Sys2Proof.Machine.execSubDReg d r s
  | .subDMem d md r => Sys2Proof.Machine.execSubDMem d md r s
  | .cmpBReg d r => Sys2Proof.Machine.execCmpBReg d r s
  | .cmpBMem d md r => Sys2Proof.Machine.execCmpBMem d md r s
  | .cmpWReg d r => Sys2Proof.Machine.execCmpWReg d r s
  | .cmpWMem d md r => Sys2Proof.Machine.execCmpWMem d md r s
  | .cmpDReg d r => Sys2Proof.Machine.execCmpDReg d r s
  | .cmpDMem d md r => Sys2Proof.Machine.execCmpDMem d md r s
  | .andBReg d r => Sys2Proof.Machine.execAndBReg d r s
  | .andBMem d md r => Sys2Proof.Machine.execAndBMem d md r s
  | .andWReg d r => Sys2Proof.Machine.execAndWReg d r s
  | .andWMem d md r => Sys2Proof.Machine.execAndWMem d md r s
  | .andDReg d r => Sys2Proof.Machine.execAndDReg d r s
  | .andDMem d md r => Sys2Proof.Machine.execAndDMem d md r s
  | .orBReg d r => Sys2Proof.Machine.execOrBReg d r s
  | .orBMem d md r => Sys2Proof.Machine.execOrBMem d md r s
  | .orWReg d r => Sys2Proof.Machine.execOrWReg d r s
  | .orWMem d md r => Sys2Proof.Machine.execOrWMem d md r s
  | .orDReg d r => Sys2Proof.Machine.execOrDReg d r s
  | .orDMem d md r => Sys2Proof.Machine.execOrDMem d md r s
  | .addiB k d => Sys2Proof.Machine.execAddiB k d s
  | .addiW k d => Sys2Proof.Machine.execAddiW k d s
  | .addiD k d => Sys2Proof.Machine.execAddiD k d s
  | .biapB k b => Sys2Proof.Machine.execBiapB k b s
  | .biapW k b => Sys2Proof.Machine.execBiapW k b s
  | .biapD k b => Sys2Proof.Machine.execBiapD k b s
  | .nop => Sys2Proof.Machine.execNop s
  | .btst d r => Sys2Proof.Machine.execBtst d r s
  | .scc c d => Sys2Proof.Machine.execScc c d s
  | .setf k => Sys2Proof.Machine.execSetf k s
  | .clearf k => Sys2Proof.Machine.execClearf k s
  | .moveToSpecial p r => Sys2Proof.Machine.execMoveToSpecial p r s
  | .moveFromSpecial p d => Sys2Proof.Machine.execMoveFromSpecial p d s
  | .abs d r => Sys2Proof.Machine.execAbs d r s
  | .dstep d r => Sys2Proof.Machine.execDstep d r s
  | .lz d r => Sys2Proof.Machine.execLz d r s
  | .swap o d => Sys2Proof.Machine.execSwap o d s
  | .xor d r => Sys2Proof.Machine.execXor d r s
  | .mstep d r => Sys2Proof.Machine.execMstep d r s
  | .mulsB d r => Sys2Proof.Machine.execMulsB d r s
  | .mulsW d r => Sys2Proof.Machine.execMulsW d r s
  | .mulsD d r => Sys2Proof.Machine.execMulsD d r s
  | .muluB d r => Sys2Proof.Machine.execMuluB d r s
  | .muluW d r => Sys2Proof.Machine.execMuluW d r s
  | .muluD d r => Sys2Proof.Machine.execMuluD d r s
  | .bdapB b md r => Sys2Proof.Machine.execBdapB b md r s
  | .bdapW b md r => Sys2Proof.Machine.execBdapW b md r s
  | .bdapD b md r => Sys2Proof.Machine.execBdapD b md r s
  | .testBMem md r => Sys2Proof.Machine.execTestBMem md r s
  | .testWMem md r => Sys2Proof.Machine.execTestWMem md r s
  | .testDMem md r => Sys2Proof.Machine.execTestDMem md r s
  | .moveBStore r md d => Sys2Proof.Machine.execMoveBStore r md d s
  | .moveWStore r md d => Sys2Proof.Machine.execMoveWStore r md d s
  | .moveDStore r md d => Sys2Proof.Machine.execMoveDStore r md d s
  | .jump md r => Sys2Proof.Machine.execJump md r s
  | .jumpReg r => Sys2Proof.Machine.execJumpReg r s
  | .jirc md r => Sys2Proof.Machine.execJirc md r s
  | .jircReg r => Sys2Proof.Machine.execJircReg r s
  | .jsrc md r => Sys2Proof.Machine.execJsrc md r s
  | .jsrcReg r => Sys2Proof.Machine.execJsrcReg r s
  | .jbrc md r => Sys2Proof.Machine.execJbrc md r s
  | .jbrcReg r => Sys2Proof.Machine.execJbrcReg r s
  | .jmpu md r => Sys2Proof.Machine.execJmpu md r s
  | .jir md r => Sys2Proof.Machine.execJir md r s
  | .jirReg r => Sys2Proof.Machine.execJirReg r s
  | .jsr md r => Sys2Proof.Machine.execJsr md r s
  | .jsrReg r => Sys2Proof.Machine.execJsrReg r s
  | .breakN n => Sys2Proof.Machine.execBreakN n s
  | .dip md r => Sys2Proof.Machine.execDip md r s
  | .bcc16 c => Sys2Proof.Machine.execBcc16 c s
  | .moveToSpecialMem p md r => Sys2Proof.Machine.execMoveToSpecialMem p md r s
  | .moveFromSpecialMem p md d => Sys2Proof.Machine.execMoveFromSpecialMem p md d s
  | .rbf md r => Sys2Proof.Machine.execRbf md r s
  | .sbfs md d => Sys2Proof.Machine.execSbfs md d s
  | .movemLoad d md r => Sys2Proof.Machine.execMovemLoad d md r s
  | .movemStore r md d => Sys2Proof.Machine.execMovemStore r md d s
  | .clearBReg d => Sys2Proof.Machine.execClearBReg d s
  | .clearBMem md d => Sys2Proof.Machine.execClearBMem md d s
  | .clearWReg d => Sys2Proof.Machine.execClearWReg d s
  | .clearWMem md d => Sys2Proof.Machine.execClearWMem md d s
  | .clearDReg d => Sys2Proof.Machine.execClearDReg d s
  | .clearDMem md d => Sys2Proof.Machine.execClearDMem md d s
  | .ret => Sys2Proof.Machine.execRet s
  | .retb => Sys2Proof.Machine.execRetb s
  | .reti => Sys2Proof.Machine.execReti s
  | .notReg d => Sys2Proof.Machine.execNotReg d s
  | .ax => Sys2Proof.Machine.execAx s
  | .ei => Sys2Proof.Machine.execEi s
  | .di => Sys2Proof.Machine.execDi s
  | .popReg d => Sys2Proof.Machine.execPopReg d s
  | .popSpecial p => Sys2Proof.Machine.execPopSpecial p s
  | .pushReg r => Sys2Proof.Machine.execPushReg r s
  | .pushSpecial p => Sys2Proof.Machine.execPushSpecial p s
  | .testBReg r => Sys2Proof.Machine.execTestBReg r s
  | .testWReg r => Sys2Proof.Machine.execTestWReg r s
  | .testDReg r => Sys2Proof.Machine.execTestDReg r s
  | .reserved w => Sys2Proof.Machine.execReserved w s
  | .unlisted w => Sys2Proof.Machine.execUnlisted w s
  | .tableNote => Sys2Proof.Machine.execTableNote s

end Sys2Proof.Machine
end

