-- ==== Sys2Proof/Machine/Events.lean ====
section
/-! DEFINITION. Sys2Proof/Machine/Events.lean: the event check, the instruction that follows it, and the placing of an
instruction where the fetch finds it (60_exceptions.md R453, 00_scope.md R16). -/

namespace Sys2Proof.Machine

/-- The answer of the interrupt oracle at this event check, and the answers left (60_exceptions.md R452; log 7). -/
def popIrq (s : State) : IrqAnswer × State :=
  match s.irqs with
  | [] => ({ irq := none, nmi := false }, s)
  | a :: rest => (a, { s with irqs := rest })

/-- The event check: hardware breakpoint, then NMI, then maskable interrupt (60_exceptions.md R453, R451; log 21). -/
def pendingEvent (a : IrqAnswer) (s : State) : Option Event :=
  if s.inhibit then none
  else if s.hwbreakPending then some .hwBreak
  else if a.nmi && s.flags.m then some .nmi
  else match a.irq with
    | some v => if s.flags.i then some (.interrupt v) else none
    | none => none

/-- Fetch the word at `pc`, decode it and execute it (00_scope.md R16). -/
def fetchAndExec (s : State) : Host.Outcome State Fault Refusal :=
  (fetchInstr s).finish fun w s' => exec (decodeWord w) s'

/-- The event check, then the event or one instruction (00_scope.md R16). -/
def checkAndRun (s : State) : Host.Outcome State Fault Refusal :=
  match pendingEvent (popIrq s).1 (popIrq s).2 with
  | some e => takeException e (popIrq s).2
  | none => fetchAndExec (popIrq s).2

/-- The restart that RBF has set up: no event check; a data cycle's word is not fetched again (60_exceptions.md R490). -/
def runRestart (r : Restart) (s : State) : Host.Outcome State Fault Refusal :=
  match r.cycle with
  | some c => exec (decodeWord c.instr) s
  | none => fetchAndExec s

/-! ## Placing an instruction -/

/-- Bytes written at ascending indices from a physical address. -/
def placeBytes (pa : Word) : Nat → List Byte → List Host.Cell → List Host.Cell
  | _, [], m => m
  | i, b :: rest, m => placeBytes pa (i + 1) rest (memWrite m (physIndex pa i) b)

/-- The physical address of the word at `pc`. -/
def fetchAddress (s : State) : Word :=
  match translate s.pc false s with
  | .ok pa _ => pa
  | .fault _ => s.pc
  | .gated _ => s.pc

/-- A list of addresses without those of `n` bytes at a physical address. -/
def unmark (pa : Word) (n : Nat) (l : List Nat) : List Nat :=
  l.filter fun a => !(List.range n).any fun i => physIndex pa i == a

/-- The writes of another agent without those to `n` bytes at a physical address. -/
def unwrite (pa : Word) (n : Nat) (l : List Host.Cell) : List Host.Cell :=
  l.filter fun c => !(List.range n).any fun i => physIndex pa i == c.1

/-- An instruction stored where the next step fetches, all that follows it up to 66 bytes zero; what could keep the step
from fetching it is put out of the way: the prefetch register, a restart, marks of stores on these bytes, another agent's
writes to them, a due event, a single-step answer (log 5). -/
def placeInstr (s : State) (bytes : List Byte) : State :=
  let pa := fetchAddress s
  { s with
    mem := placeBytes pa 0 bytes s.mem
    prefetch := none
    resume := none
    stores :=
      { fresh := unmark pa bytes.length s.stores.fresh
        cached := unmark pa bytes.length s.stores.cached
        uncached := unmark pa bytes.length s.stores.uncached }
    inhibit := s.inhibit || (pendingEvent (popIrq s).1 (popIrq s).2).isSome
    steps := s.steps.dropWhile id
    outside := s.outside.map (unwrite pa bytes.length) }

end Sys2Proof.Machine
end

