-- ==== Sys2Proof/Machine/Step.lean ====
section
/-! DEFINITION. Sys2Proof/Machine/Step.lean: one step of the CPU (00_scope.md R16). -/

namespace Sys2Proof.Machine

/-- One step: a restart that RBF has set up, or the event check and then the event or one instruction (00_scope.md R16,
60_exceptions.md R453, R490). -/
def step (s : State) : Host.Outcome State Fault Refusal :=
  match s.resume with
  | some r => runRestart r s
  | none => checkAndRun s

/-- `s` with the instruction of an opcode-table row stored where `step` fetches next. -/
def State.withFetchWord (s : State) (nbits w : Nat) : State := placeInstr s (bytesOfNat 66 (w % 2 ^ nbits))

end Sys2Proof.Machine
end

