-- ==== Sys2Proof/Safety.lean ====
section
/-! DEFINITION. Sys2Proof/Safety.lean: what a well-formed state is, and the terms in which the claims say when an instruction
completes and what state it leaves. -/

namespace Sys2Proof.Machine

/-! ## Well-formed states -/

/-- `SR_OFF_*` give the five fields places of their own in the sixteen bytes of a record (60_exceptions.md R481). -/
abbrev LayoutOk (l : Config.RecordLayout) : Prop :=
  let fields := [(l.pc, 4), (l.state, 2), (l.instr, 2), (l.addr, 4), (l.data, 4)]
  (∀ f ∈ fields, f.1 + f.2 ≤ 16) ∧ fields.Pairwise fun f g => f.1 + f.2 ≤ g.1 ∨ g.1 + g.2 ≤ f.1

/-- What every step keeps (00_scope.md R16; 10_state.md R32, R50, R63; 20_memory.md R84; 60_exceptions.md R483). -/
structure StateOk (s : State) : Prop where
  /-- Memory is in its canonical form. -/
  memory : memWf s.mem = true
  /-- PC is even. -/
  pcEven : s.pc.getLsbD 0 = false
  /-- So is the successor address of a restart that is set up. -/
  resumeEven : ∀ r, s.resume = some r → r.next.getLsbD 0 = false
  /-- While a prefix, a delay slot or a restart is pending, events are inhibited. -/
  windowHeld : (s.prefixAddr.isSome || s.delay.isSome || s.resume.isSome) = true → s.inhibit = true
  /-- Bits 15:9 of the execution state field are 0. -/
  reservedBits : s.hidden.state.extractLsb' 9 7 = 0#7
  /-- The fields of a status record have places of their own. -/
  layout : LayoutOk s.layout

/-! ## When an access or an instruction completes -/

/-- The MMU is off and not in test mode, the single-step unit is silent, no MMU register is mapped, no other agent writes. -/
structure Plain (s : State) : Prop where
  /-- R_MMU_ENABLE is 0. -/
  mmuOff : s.mmu.enable = false
  /-- R_TEST_MODE is 0. -/
  testOff : s.mmu.testMode = false
  /-- No single-step bus fault is signalled. -/
  noSingleStep : s.steps = []
  /-- No address is an MMU register. -/
  noWindows : s.mmuMap = []
  /-- No other agent writes to memory. -/
  noOutside : s.outside = []

/-- Memory exists at `n` bytes (20_memory.md R84). -/
def Readable (s : State) (a : Word) (n : Nat) : Prop := ∀ i, i < n → (regionKind s (physIndex a i)).isSome = true

/-- Writable memory exists at `n` bytes (20_memory.md R84). -/
def Writable (s : State) (a : Word) (n : Nat) : Prop := ∀ i, i < n → regionKind s (physIndex a i) = some .ram

/-- Code can be fetched at an even address with the MMU off: memory exists, the bytes are not stale (20_memory.md R91),
and the prefetch register holds what memory holds (R77). -/
structure Fetchable (s : State) (a : Word) : Prop where
  /-- The address is even (10_state.md R32). -/
  even : a.getLsbD 0 = false
  /-- Memory exists there. -/
  readable : Readable s a 6
  /-- No halfword there is refused as self-modified code. -/
  fresh : ∀ i, i < 3 → staleFetch s (a + BitVec.ofNat 32 (2 * i)) = none
  /-- The prefetch register is empty, or holds the halfword of memory at its address. -/
  prefetched : ∀ p, s.prefetch = some p → p.phys = p.addr ∧ p.half = (loadBytes s.mem p.addr 2).setWidth 16

/-- The target of a taken transfer, if the word stands in its delay slot, is even (10_state.md R32). -/
def SlotOk (s : State) : Prop := ∀ d, s.delay = some d → d.target.getLsbD 0 = false

/-- The memory operand of a word may be read: no restart, an allowed form (45_jump_branch.md R404, 40_addressing.md R215),
memory there. -/
structure OperandReady (md : Bool) (r : RegNo) (n : Nat) (s : State) : Prop where
  /-- No MMU, no single step, no MMU register. -/
  plain : Plain s
  /-- The word is not a restarted one. -/
  noRestart : s.resume = none
  /-- In a delay slot there is no prefix and no immediate. -/
  slotForm : s.delay.isSome = true → s.prefixAddr = none ∧ isInline md r s = false
  /-- No assign to PC. -/
  noAssign : md = true → r = 15#4 → s.prefixAddr = none
  /-- The delay slot's target is even. -/
  slot : SlotOk s
  /-- The bytes are there, as code for an in-line operand. -/
  bytes : if isInline md r s then Fetchable s (operandAddress r s) else Readable s (operandAddress r s) n

/-- The memory operand of a word may be written. -/
structure StoreReady (md : Bool) (r : RegNo) (n : Nat) (s : State) : Prop where
  /-- No MMU, no single step, no MMU register. -/
  plain : Plain s
  /-- The word is not a restarted one. -/
  noRestart : s.resume = none
  /-- In a delay slot there is no prefix and no immediate. -/
  slotForm : s.delay.isSome = true → s.prefixAddr = none ∧ isInline md r s = false
  /-- No assign to PC. -/
  noAssign : md = true → r = 15#4 → s.prefixAddr = none
  /-- The delay slot's target is even. -/
  slot : SlotOk s
  /-- Writable memory is there. -/
  bytes : Writable s (operandAddress r s) n
  /-- Memory is in its canonical form. -/
  memory : memWf s.mem = true

/-- What reading an operand or fetching may change beside its result: the prefetch register, only if something is fetched;
the latched breakpoint hit, only if B is set (20_memory.md R77, 60_exceptions.md R464). -/
def ReadOnly (fetches : Bool) (s s' : State) : Prop :=
  s' = { s with prefetch := s'.prefetch, hwbreakPending := s'.hwbreakPending } ∧
    (fetches = false → s'.prefetch = s.prefetch) ∧ (s.flags.b = false → s'.hwbreakPending = s.hwbreakPending)

/-- The byte at a physical address after another agent has written `cells`, oldest first: the last one written there, if
writable memory is there (00_scope.md R15, 20_memory.md R84, R89; log 43). -/
def afterOutside (s : State) (m : List Host.Cell) (cells : List Host.Cell) (x : Nat) : Byte :=
  if x < physSize ∧ regionKind s x = some .ram then ((cells.reverse.find? fun c => c.1 == x).map (·.2)).getD (memRead m x)
  else memRead m x

/-- Memory `m'` is memory `m` with another agent's writes, in canonical form. -/
def OutsideWrote (s : State) (cells : List Host.Cell) (m m' : List Host.Cell) : Prop :=
  memWf m' = true ∧ ∀ x, memRead m' x = afterOutside s m cells x

/-- The value of a memory operand of `n` bytes (40_addressing.md R206). -/
def memoryValue (r : RegNo) (n : Nat) (s : State) : Word := loadBytes s.mem (operandAddress r s) n

/-! ## The state that a completed instruction leaves -/

/-- The end of a word that transfers no control: the next word follows, or, in a delay slot, the target of the transfer
(10_state.md R51). X is kept by the words that say so, cleared by all others. -/
def finished (seq : Word) (window keepX : Bool) (s : State) : State :=
  match s.delay with
  | none =>
    { s with
      pc := seq, inhibit := window, prefixAddr := none, resume := none
      flags := { s.flags with x := s.flags.x && keepX } }
  | some d =>
    { s with
      pc := d.target, delay := none, inhibit := window, prefixAddr := none, resume := none, prefetch := none
      flags := { s.flags with x := s.flags.x && keepX }
      mode := if d.ret && s.flags.u then .user else s.mode
      stores := { s.stores with fresh := [] } }

/-- The end of a word that transfers control at once (10_state.md R30, R51). -/
def jumped (target : Word) (window : Bool) (s : State) : State :=
  { s with
    pc := target, inhibit := window, prefixAddr := none, resume := none, prefetch := none
    flags := { s.flags with x := false }
    stores := { s.stores with fresh := [] } }

/-- The end of a word that starts a delayed transfer of control (10_state.md R31, R51). -/
def delayedTo (seq target : Word) (ret : Bool) (s : State) : State :=
  { s with
    pc := seq, delay := some { target := target, ret := ret }, inhibit := true, prefixAddr := none, resume := none
    flags := { s.flags with x := false } }

/-- A result of size `m` and its flags written to a register other than PC (10_state.md R22). -/
def withResult (m : Size) (d : RegNo) (x : Word × Flags) (s : State) : State :=
  { writeReg d (mergeSize m (readReg d s) x.1) s with flags := x.2 }

/-- Flags alone written. -/
def withFlags (f : Flags) (s : State) : State := { s with flags := f }

/-- The destination of a form with a 3-operand variant: Operand1 after a prefix with md = 0, else Operand2
(30_encoding.md R138). -/
def threeOperandDest (d : RegNo) (md : Bool) (r : RegNo) (s : State) : RegNo :=
  if s.prefixAddr.isSome && !md then r else d

/-- Every byte outside the `n` bytes at `a` reads as before, and those bytes read as the bytes of `v`. -/
def StoredAt (a : Word) (n : Nat) (v : Word) (before after : List Host.Cell) : Prop :=
  (∀ i, i < n → memRead after (physIndex a i) = v.extractLsb' (8 * i) 8) ∧
    ∀ x, (∀ i, i < n → x ≠ physIndex a i) → memRead after x = memRead before x

/-- What a store of the low `n` bytes of `v` at `a` does: these bytes, and no others, change; they count as stored
(20_memory.md R91); the latched breakpoint hit may change only if B is set (60_exceptions.md R464). -/
def WrittenAt (a : Word) (n : Nat) (v : Word) (s s' : State) : Prop :=
  s' = { s with mem := s'.mem, stores := s'.stores, hwbreakPending := s'.hwbreakPending } ∧
    (s.flags.b = false → s'.hwbreakPending = s.hwbreakPending) ∧ StoredAt a n v s.mem s'.mem ∧
    ∀ i, i < n → s'.stores.fresh.contains (physIndex a i) = true

/-! ## Arithmetic in exact integers, against which the claims hold the instructions -/

/-- `bits(m)` (00_scope.md R10). -/
def widthOf : Size → Nat
  | .byte => 8
  | .word => 16
  | .dword => 32

/-- The low `bits(m)` bits as an unsigned number (00_scope.md R9, `zext`). -/
def unsignedAt (m : Size) (v : Word) : Nat := v.toNat % 2 ^ widthOf m

/-- The low `bits(m)` bits as a two's complement number (00_scope.md R9, `sext`). -/
def signedAt (m : Size) (v : Word) : Int :=
  if unsignedAt m v < 2 ^ (widthOf m - 1) then unsignedAt m v else unsignedAt m v - 2 ^ widthOf m

/-- `trunc_bits(m)` of an integer, as a dword (00_scope.md R9). -/
def patternAt (m : Size) (x : Int) : Word := BitVec.ofInt 32 (x % 2 ^ widthOf m)

/-- A byte, word or dword zero extended. -/
def zeroExtended (m : Size) (v : Word) : Word := patternAt m v.toNat

/-- A byte, word or dword sign extended. -/
def signExtended (m : Size) (v : Word) : Word := patternAt .dword (signedAt m v)

/-- `cin`: C if X is set, else 0 (10_state.md R40). -/
def carryOf (f : Flags) : Nat := if f.x && f.c then 1 else 0

/-- N and Z of a result, with V and C given: with X set a zero result keeps the old Z (10_state.md R39). -/
def flagsOf (m : Size) (r : Word) (v c : Bool) (f : Flags) : Flags :=
  { f with n := decide (signedAt m r < 0), z := decide (unsignedAt m r = 0) && (f.z || !f.x), v := v, c := c }

/-- A result that clears V and C. -/
def plainResult (m : Size) (f : Flags) (r : Word) : Word × Flags := (r, flagsOf m r false false f)

/-- D + S + cin: C is the carry out, V says that the exact signed sum does not fit (10_state.md R40). -/
def sumOf (m : Size) (f : Flags) (a b : Word) : Word × Flags :=
  let r := patternAt m (unsignedAt m a + unsignedAt m b + carryOf f)
  (r, flagsOf m r (decide (signedAt m a + signedAt m b + carryOf f ≠ signedAt m r))
    (decide (2 ^ widthOf m ≤ unsignedAt m a + unsignedAt m b + carryOf f)) f)

/-- D - S - cin: C is the borrow, V says that the exact signed difference does not fit (10_state.md R40). -/
def differenceOf (m : Size) (f : Flags) (a b : Word) : Word × Flags :=
  let r := patternAt m (unsignedAt m a - unsignedAt m b - carryOf f)
  (r, flagsOf m r (decide (signedAt m a - signedAt m b - carryOf f ≠ signedAt m r))
    (decide (unsignedAt m a < unsignedAt m b + carryOf f)) f)

/-- A value moved at size m (41_data_transfer.md R244, R250 to R252). -/
def movedOf (m : Size) (f : Flags) (v : Word) : Word × Flags := plainResult m f (zeroExtended m v)

/-- AND at size m (43_logic_shift_bit.md R343). -/
def andOf (m : Size) (f : Flags) (a b : Word) : Word × Flags := plainResult m f (zeroExtended m (a &&& b))

/-- OR at size m (43_logic_shift_bit.md R346). -/
def orOf (m : Size) (f : Flags) (a b : Word) : Word × Flags := plainResult m f (zeroExtended m (a ||| b))

/-- A left shift: times a power of two, truncated (43_logic_shift_bit.md R351). -/
def leftShiftOf (m : Size) (f : Flags) (a : Word) (n : Nat) : Word × Flags :=
  plainResult m f (patternAt m (unsignedAt m a * 2 ^ n : Nat))

/-- A logical right shift: the unsigned quotient (43_logic_shift_bit.md R353). -/
def rightShiftOf (m : Size) (f : Flags) (a : Word) (n : Nat) : Word × Flags :=
  plainResult m f (patternAt m (unsignedAt m a / 2 ^ n : Nat))

/-- An arithmetic right shift: the signed quotient rounded down, counts above 31 as 31 (43_logic_shift_bit.md R349). -/
def signedShiftOf (m : Size) (f : Flags) (a : Word) (n : Nat) : Word × Flags :=
  plainResult m f (patternAt m (signedAt m a / 2 ^ min n 31))

/-- BTST of bit `n`: N is that bit, Z says whether it and all below it are 0 (43_logic_shift_bit.md R355). -/
def bitTestOf (f : Flags) (a : Word) (n : Nat) : Flags :=
  { f with
    n := decide (a.toNat / 2 ^ n % 2 = 1), z := decide (a.toNat % 2 ^ (n + 1) = 0) && (f.z || !f.x), v := false, c := false }

/-- The number of leading zeros (43_logic_shift_bit.md R357). -/
def leadingZerosOf (a : Word) : Nat := if a.toNat = 0 then 32 else 31 - Nat.log2 a.toNat

/-- BOUND of index `a` by `b` (42_arithmetic.md R290; the place of cin is log 14). -/
def boundOf (f : Flags) (a b : Word) : Word × Flags :=
  plainResult .dword f (if b.toNat < a.toNat + carryOf f then b else a)

/-- ABS (42_arithmetic.md R284; the place of cin is log 14). -/
def absOf (f : Flags) (a : Word) : Word × Flags :=
  plainResult .dword f (if signedAt .dword a < 0 then patternAt .dword (0 - signedAt .dword a - carryOf f) else a)

/-- DSTEP (42_arithmetic.md R295; the place of cin is log 14). -/
def divideStepOf (f : Flags) (a b : Word) : Word × Flags :=
  let t := 2 * a.toNat % 2 ^ 32
  plainResult .dword f
    (patternAt .dword (if b.toNat + carryOf f ≤ t then (t : Int) - b.toNat - carryOf f else (t : Int)))

/-- MSTEP (42_arithmetic.md R296; the place of cin is log 14). -/
def multiplyStepOf (f : Flags) (a b : Word) : Word × Flags :=
  plainResult .dword f (patternAt .dword (if f.n then 2 * a.toNat + b.toNat + carryOf f else (2 * a.toNat : Nat)))

/-- Flags of a product (42_arithmetic.md R313, R314). -/
def productFlags (negative zero overflow : Bool) (f : Flags) : Flags :=
  { f with n := negative, z := zero && (f.z || !f.x), v := overflow, c := false }

/-- What MULS and MULU leave: the low dword in Rd, the high one in MOF (42_arithmetic.md R313, R314). -/
def withProduct (d : RegNo) (p : Int) (fl : Flags) (s : State) : State :=
  { writeReg d (patternAt .dword p) s with sregs := { s.sregs with mof := patternAt .dword (p / 2 ^ 32) }, flags := fl }

/-! ## How a completed instruction ends, by shape -/

/-- A quick or register form that writes `x` to Rd at size m. -/
def registerEnd (m : Size) (d : RegNo) (x : Word × Flags) (s : State) : State :=
  finished (pcPlus2 s) false false (withResult m d x s)

/-- A quick or register form that writes flags only. -/
def flagsEnd (f : Flags) (s : State) : State := finished (pcPlus2 s) false false (withFlags f s)

/-- A memory form whose operand read has left `s₁`: the address register is updated, then `x` is written to a register. -/
def operandEnd (m : Size) (n : Nat) (dest : RegNo) (md : Bool) (r : RegNo) (x : Word × Flags) (s s₁ : State) : State :=
  finished (endAddress md r n s) false false (withResult m dest x (updateAddress md r n (operandAddress r s) s₁))

/-- The same where only flags are written. -/
def operandFlagsEnd (n : Nat) (md : Bool) (r : RegNo) (f : Flags) (s s₁ : State) : State :=
  finished (endAddress md r n s) false false (withFlags f (updateAddress md r n (operandAddress r s) s₁))

/-- An instruction reads its operand, which changes nothing else of `s`, and completes. -/
def ReadsAndEnds (i : Instr) (md : Bool) (r : RegNo) (s : State) (last : State → State) : Prop :=
  ∃ s₁, ReadOnly (isInline md r s) s s₁ ∧ exec i s = .next (last s₁)

/-- A store of `n` bytes of `v` that completes: the bytes, the address register, the end. -/
def StoresAndEnds (i : Instr) (md : Bool) (d : RegNo) (n : Nat) (v : Word) (window : Bool) (s : State) : Prop :=
  ∃ s₁, WrittenAt (operandAddress d s) n v s s₁ ∧
    exec i s = .next (finished (endAddress md d n s) window false (updateAddress md d n (operandAddress d s) s₁))

/-- A store that the conditional test suppresses: P is set and everything else happens (20_memory.md R76). -/
def suppressedEnd (md : Bool) (d : RegNo) (n : Nat) (window : Bool) (s : State) : State :=
  finished (endAddress md d n s) window false
    (updateAddress md d n (operandAddress d s) { s with flags := { s.flags with p := true } })

/-- A result written to PC: a jump, to an odd address U3 (10_state.md R30, R32). -/
def pcResult (m : Size) (x : Word × Flags) (s : State) : Host.Outcome State Fault Refusal :=
  let t := mergeSize m (pcPlus2 s) x.1
  if t.getLsbD 0 then .fault (.oddTarget t) else .next (jumped t false (withFlags x.2 s))

/-- The end of a prefix word (10_state.md R63). -/
def prefixed (seq addr : Word) (s : State) : State :=
  { s with pc := seq, prefixAddr := some addr, inhibit := true, resume := none }

/-- MOVEM has loaded R0 to Rd from ascending dwords, Rd first (41_data_transfer.md R254). -/
structure RegistersLoaded (inLine : Bool) (d : RegNo) (a : Word) (s s₁ : State) : Prop where
  /-- Nothing else changes. -/
  frame : s₁ = { s with
    regs := s₁.regs, ssp := s₁.ssp, usp := s₁.usp, prefetch := s₁.prefetch, hwbreakPending := s₁.hwbreakPending }
  /-- Rk is the dword at a + 4(d - k); registers above Rd keep their values. -/
  registers : ∀ k : RegNo, k ≠ 15#4 → readReg k s₁ =
    if k.toNat ≤ d.toNat then loadBytes s.mem (a + BitVec.ofNat 32 (4 * (d.toNat - k.toNat))) 4 else readReg k s
  /-- The stack pointer of the other mode stays. -/
  otherStack : if s.mode = .user then s₁.ssp = s.ssp else s₁.usp = s.usp
  /-- The prefetch register changes only for in-line data. -/
  prefetch : inLine = false → s₁.prefetch = s.prefetch
  /-- A breakpoint hit is latched only if B is set. -/
  breakpoint : s.flags.b = false → s₁.hwbreakPending = s.hwbreakPending

/-- MOVEM has stored R0 to Rr to ascending dwords, Rr first (41_data_transfer.md R255). -/
structure RegistersStored (r : RegNo) (a : Word) (s s₁ : State) : Prop where
  /-- Nothing else changes. -/
  frame : s₁ = { s with mem := s₁.mem, stores := s₁.stores, hwbreakPending := s₁.hwbreakPending }
  /-- The dword at a + 4(r - k) is Rk. -/
  stored : ∀ k : RegNo, k.toNat ≤ r.toNat →
    loadBytes s₁.mem (a + BitVec.ofNat 32 (4 * (r.toNat - k.toNat))) 4 = readReg k s
  /-- No other byte changes. -/
  others : ∀ x, (∀ i, i < 4 * (r.toNat + 1) → x ≠ physIndex a i) → memRead s₁.mem x = memRead s.mem x
  /-- A breakpoint hit is latched only if B is set. -/
  breakpoint : s.flags.b = false → s₁.hwbreakPending = s.hwbreakPending

/-- SBFS has stored the record at `a`, each field at its offset `SR_OFF_*` (60_exceptions.md R481, 45_jump_branch.md R430). -/
structure RecordStored (a : Word) (s s₁ : State) : Prop where
  /-- Nothing else changes. -/
  frame : s₁ = { s with mem := s₁.mem, stores := s₁.stores, hwbreakPending := s₁.hwbreakPending }
  /-- PC field. -/
  pc : loadBytes s₁.mem (a + BitVec.ofNat 32 s.layout.pc) 4 = s.hidden.pc
  /-- Execution state field. -/
  state : loadBytes s₁.mem (a + BitVec.ofNat 32 s.layout.state) 2 = s.hidden.state.setWidth 32
  /-- Instruction field. -/
  instr : loadBytes s₁.mem (a + BitVec.ofNat 32 s.layout.instr) 2 = s.hidden.instr.setWidth 32
  /-- Interrupted address field. -/
  addr : loadBytes s₁.mem (a + BitVec.ofNat 32 s.layout.addr) 4 = s.hidden.addr
  /-- Data field. -/
  data : loadBytes s₁.mem (a + BitVec.ofNat 32 s.layout.data) 4 = s.hidden.data
  /-- No other byte changes. -/
  others : ∀ x, (∀ i, i < 16 → x ≠ physIndex a i) → memRead s₁.mem x = memRead s.mem x
  /-- A breakpoint hit is latched only if B is set. -/
  breakpoint : s.flags.b = false → s₁.hwbreakPending = s.hwbreakPending

/-- The record in memory at `a`, each field at its offset `SR_OFF_*` (60_exceptions.md R481). -/
def recordAt (l : Config.RecordLayout) (m : List Host.Cell) (a : Word) : StatusRecord :=
  let field := fun (off n : Nat) => loadBytes m (a + BitVec.ofNat 32 off) n
  { pc := field l.pc 4, state := (field l.state 2).setWidth 16, instr := (field l.instr 2).setWidth 16
    addr := field l.addr 4, data := field l.data 4 }

/-- The state that RBF leaves: the mode and flags of 45_jump_branch.md R431, and the restart of 60_exceptions.md R490 for the
next step. -/
def resumed (rec : StatusRecord) (pc next : Word) (cycle : Option RestartCycle) (pending : Option Word) (s : State) : State :=
  { s with
    mode := if s.flags.u then .user else s.mode
    flags := { s.flags with x := rec.state.getLsbD 6, u := rec.state.getLsbD 7 }
    pc := pc, prefixAddr := pending, resume := some { next := next, cycle := cycle }, inhibit := true, prefetch := none
    delay := if rec.state.getLsbD 2 then some { target := rec.pc, ret := rec.state.getLsbD 3 } else none
    stores := { s.stores with fresh := [] } }

/-! ## Taking an exception -/

/-- The transition to supervisor mode (60_exceptions.md R455): U is the old mode, F is set. -/
def trapped (s : State) : State :=
  { s with mode := .supervisor, flags := { s.flags with u := decide (s.mode = .user), f := true } }

/-- The start of a handler (60_exceptions.md R459, R466). -/
def handlerAt (target : Word) (s : State) : State :=
  { s with
    pc := target, delay := none, prefixAddr := none, inhibit := true, prefetch := none, resume := none
    stores := { s.stores with fresh := [] } }

/-- The address of vector `v` (60_exceptions.md R459, 10_state.md R43). -/
def vectorAt (s : State) (v : Nat) : Word := (s.sregs.ibr ++ 0#16) + BitVec.ofNat 32 (4 * v)

/-- Reading a vector may latch a breakpoint hit if B is set (60_exceptions.md R464). -/
def MayHit (s t t' : State) : Prop :=
  t' = { t with hwbreakPending := t'.hwbreakPending } ∧ (s.flags.b = false → t'.hwbreakPending = t.hwbreakPending)

/-! ## The TLB -/

/-- The entry of set `k` at the location of an address (20_memory.md R97). -/
def entryAt (s : State) (va : Word) (k : Fin 4) : TlbEntry := s.mmu.tlb[16 * k.val + va.toNat / 2 ^ 13 % 16]

/-- The entry of set `k` hits (20_memory.md R98). -/
def TlbHit (s : State) (va : Word) (k : Fin 4) : Prop :=
  ((entryAt s va k).valid = true ∨ s.mmu.invExcp = true) ∧ (entryAt s va k).vpn.toNat = va.toNat / 2 ^ 17 ∧
    ((entryAt s va k).pageId = s.mmu.context ∨ (entryAt s va k).global = true)

/-- The address lies in a linear-mapped segment of the current mode (20_memory.md R94). -/
def Linear (s : State) (va : Word) : Prop := s.mode = .supervisor ∧ s.mmu.kseg.getLsbD (va.toNat / 2 ^ 28) = true

/-- The base field of a segment (10_state.md R56, 20_memory.md R96). -/
def baseField (s : State) (seg : Nat) : Nat :=
  if seg < 8 then s.mmu.kbaseLo.toNat / 2 ^ (4 * seg) % 16 else s.mmu.kbaseHi.toNat / 2 ^ (4 * (seg - 8)) % 16

/-- The physical address of a linear-mapped address (20_memory.md R96). -/
def linearPhysical (s : State) (va : Word) : Word :=
  BitVec.ofNat 32 (2 ^ 28 * baseField s (va.toNat / 2 ^ 28) + va.toNat % 2 ^ 28)

/-- R_MMU_CAUSE of an exception on an access to `va` (20_memory.md R102). -/
def causeFor (s : State) (va : Word) (write miss inv acc we : Bool) : MmuCause :=
  { vpn := BitVec.ofNat 19 (va.toNat / 2 ^ 13), pageId := s.mmu.context, miss := miss, inv := inv, acc := acc, we := we,
    write := write }

/-- The state after a TLB miss: R_MMU_CAUSE, and R_TLB_SELECT with the random set (20_memory.md R102, R103; log 8). -/
def missed (va : Word) (write : Bool) (s : State) : State :=
  { s with
    mmu := { s.mmu with
      cause := causeFor s va write true false false false
      select := BitVec.ofNat 6 (16 * (Config.tlbRandom s.missCount).toNat + va.toNat / 2 ^ 13 % 16) }
    missCount := s.missCount + 1 }

/-- The execution state field of a record whose bits 5 and 0 are 0 (60_exceptions.md R483, R484). -/
def stateField (data : Bool) (s : State) : Half :=
  BitVec.ofNat 16 (256 * s.flags.f.toNat + 128 * s.flags.u.toNat + 64 * s.flags.x.toNat + 16 * data.toNat +
    8 * (s.delay.any (·.ret)).toNat + 4 * s.delay.isSome.toNat + 2 * s.prefixAddr.isSome.toNat)

/-- The PC field of a record, given the address after the word (60_exceptions.md R482). -/
def pcField (next : Word) (s : State) : Word :=
  match s.delay with
  | some d => d.target
  | none => next

end Sys2Proof.Machine
end

