-- ==== Sys2Proof/Certificates/Slice0/Obligations.lean ====
section
/-! DEFINITION. Sys2Proof/Certificates/Slice0/Obligations.lean: the statements for the provers. Each says what the spec says of the
machine, in the terms of Sys2Proof/Safety.lean; OBLIGATIONS.json lists them with the rules they rest on. -/

open Sys2Proof Sys2Proof.Machine

/-- Decoding the encoded bytes of any well-formed instruction gives it back (R72, R131, R141, R142, R143, R144, R145,
R146, R147, R152). -/
def Obligations.DecodeOfEncode : Prop :=
  ∀ (i : Instr) (rest : List Byte), WellFormed i = true →
    decodeBytes ((encode i).setWidth 8 :: (encode i).extractLsb' 8 8 :: rest) = .ok (i, rest)

/-- Every 16-bit word decodes to a well-formed instruction whose encoding is that word (R131, R153, R154). -/
def Obligations.EncodeOfDecode : Prop :=
  ∀ w : Half, WellFormed (decodeWord w) = true ∧ encode (decodeWord w) = w

/-- Words the spec writes out decode to the instructions it names (R184, R162, R163, R164, R166). -/
def Obligations.SampleWordsDecode : Prop :=
  decodeWord 0x0244#16 = .moveq 0#4 4#6 ∧
  decodeWord 0x0281#16 = .subq 0#4 1#6 ∧
  decodeWord 0x20FF#16 = .bcc .ne 0xFF#8 ∧
  decodeWord 0xE006#16 = .bcc .a 6#8 ∧
  decodeWord 0x0622#16 = .addDReg 0#4 2#4 ∧
  decodeWord 0x1433#16 = .addsWReg 1#4 3#4 ∧
  decodeWord 0x7A63#16 = .moveDMem 7#4 false 3#4 ∧
  decodeWord 0x1FC2#16 = .moveBStore 1#4 true 2#4 ∧
  decodeWord 0x4E6F#16 = .moveDMem 4#4 true 15#4 ∧
  decodeWord 0x09B3#16 = .jumpReg 3#4 ∧
  decodeWord 0xB9B3#16 = .jsrReg 3#4 ∧
  decodeWord 0x0D3E#16 = .jump true 14#4 ∧
  decodeWord 0x8D3E#16 = .jmpu true 14#4 ∧
  decodeWord 0xE933#16 = .breakN 3#4 ∧
  decodeWord 0x7546#16 = .biapB 7#4 6#4 ∧
  decodeWord 0xE108#16 = .bdapByte 14#4 8#8 ∧
  decodeWord 0x4A15#16 = .addWMem 4#4 false 5#4 ∧
  decodeWord 0x0D7F#16 = .dip true 15#4 ∧
  decodeWord 0x0A70#16 = .clearBMem false 0#4 ∧
  decodeWord 0x2BFE#16 = .movemStore 2#4 false 14#4 ∧
  decodeWord 0x2FBE#16 = .movemLoad 2#4 true 14#4 ∧
  decodeWord 0x3F7E#16 = .sbfs true 14#4 ∧
  decodeWord 0x3F3E#16 = .rbf true 14#4 ∧
  decodeWord 0x2D21#16 = .muluD 2#4 1#4 ∧
  decodeWord 0xF770#16 = .swap 15#4 0#4 ∧
  decodeWord 0x25B0#16 = .ei ∧
  decodeWord 0x050F#16 = .nop ∧
  decodeWord 0xB67F#16 = .ret ∧
  decodeWord 0x5E7E#16 = .pushSpecial .ccr ∧
  decodeWord 0xBE3E#16 = .popSpecial .srp

/-- Reserved and unlisted words, and only they, stop as such; the table note is no word (R153, R154; log 18). -/
def Obligations.WordsWithoutMeaningStop : Prop :=
  (∀ (w : Half) (s : State), isReserved w = true → exec (decodeWord w) s = .refused (.reservedEncoding w)) ∧
  (∀ (w : Half) (s : State), isUnlisted w = true → exec (decodeWord w) s = .refused (.unlistedEncoding w)) ∧
  (∀ w v : Half, decodeWord w = .reserved v → v = w ∧ isReserved w = true) ∧
  (∀ w v : Half, decodeWord w = .unlisted v → v = w ∧ isUnlisted w = true) ∧
  (∀ w : Half, decodeWord w ≠ .tableNote) ∧
  (∀ (w : Half) (s : State), exec (.reserved w) s = .refused (.reservedEncoding w)) ∧
  (∀ (w : Half) (s : State), exec (.unlisted w) s = .refused (.unlistedEncoding w)) ∧
  ∀ s : State, exec .tableNote s = .refused .notAnInstruction

/-- A step fetches the word at PC and executes what it decodes to; a restarted word is executed without a fetch (R453,
R77, R490). -/
def Obligations.StepRunsDecodedWord : Prop :=
  (∀ (s : State) (i : Instr), s.resume = none → pendingEvent (popIrq s).1 (popIrq s).2 = none → Plain s →
    Fetchable s s.pc →
    decodeBytes [memRead s.mem (physIndex s.pc 0), memRead s.mem (physIndex s.pc 1)] = .ok (i, []) →
    WellFormed i = true →
    ∃ s₁, ReadOnly true { s with irqs := s.irqs.tail } s₁ ∧
      (∀ p, s₁.prefetch = some p → p.phys = p.addr ∧ p.half = (loadBytes s₁.mem p.addr 2).setWidth 16) ∧
      step s = exec i s₁) ∧
  ∀ (s : State) (r : Restart) (c : RestartCycle), s.resume = some r → r.cycle = some c →
    step s = exec (decodeWord c.instr) s

/-- Every step from a well-formed state leaves a well-formed state (R27, R50, R51, R63, R84, R453, R483; log 12). -/
def Obligations.StepKeepsStateOk : Prop :=
  ∀ s t : State, StateOk s → step s = .next t → StateOk t

/-- The state after reset is well formed (R521, R65, R7; log 2, 5, 12). -/
def Obligations.ResetStateOk : Prop :=
  (∀ p : Parameters, memWf p.mem = true → LayoutOk p.layout → StateOk (State.resetWith p)) ∧ StateOk State.reset

/-- What reset leaves where the spec says so, for every boot method and all other parameters (R521, R523, R65, R35,
R7; log 5, 12). -/
def Obligations.ResetValues : Prop :=
  (∀ p : Parameters, (State.resetWith p).mode = .supervisor ∧ readSreg .ccr (State.resetWith p) = 0#32 ∧
    readSreg .dccr (State.resetWith p) = 0#32 ∧ readSreg .ibr (State.resetWith p) = 0#32 ∧
    readSreg .vr (State.resetWith p) = 10#32 ∧ (State.resetWith p).delay = none ∧
    (State.resetWith p).prefixAddr = none ∧ (State.resetWith p).inhibit = false ∧
    (State.resetWith p).hwbreakPending = false ∧ (State.resetWith p).mmu.enable = false ∧
    (State.resetWith p).pc = Config.resetPc p.bootMethod ∧ (State.resetWith p).layout = p.layout ∧
    (State.resetWith p).physMap = p.physMap ∧ (State.resetWith p).mem = p.mem ∧
    (State.resetWith p).mmuMap = p.mmuMap ∧ (State.resetWith p).irqs = p.irqs ∧
    (State.resetWith p).steps = p.steps ∧ (State.resetWith p).outside = p.outside) ∧
  Config.resetPc .prom = 0x80000002#32 ∧ Config.resetPc .net = 0x380000F0#32 ∧
  Config.resetPc .parallel = 0x380000F0#32 ∧ Config.resetPc .serial = 0x380000F4#32 ∧
  State.reset = State.resetWith Parameters.defaults ∧ Parameters.defaults.bootMethod = .prom ∧
  Parameters.defaults.layout = { pc := 0, state := 4, instr := 6, addr := 8, data := 12 }

/-- A step in user mode never changes IBR, BAR, I or B, and M only an NMI can clear (R66, R458, R463). -/
def Obligations.UserModeProtection : Prop :=
  ∀ s t : State, s.mode = .user → step s = .next t →
    t.sregs.ibr = s.sregs.ibr ∧ t.sregs.bar = s.sregs.bar ∧ t.flags.i = s.flags.i ∧ t.flags.b = s.flags.b ∧
    (t.flags.m = s.flags.m ∨
      t.flags.m = false ∧ t.mode = .supervisor ∧ s.flags.m = true ∧ s.inhibit = false ∧ (popIrq s).1.nmi = true)

/-- User mode is left only through a trap and entered only with the U flag (R455, R456, R68, R425). -/
def Obligations.ModeChanges : Prop :=
  (∀ s t : State, s.mode = .user → t.mode = .supervisor → step s = .next t →
    t.flags.f = true ∧ t.prefixAddr = none ∧ t.delay = none ∧ t.resume = none) ∧
  (∀ s t : State, s.mode = .supervisor → t.mode = .user → step s = .next t →
    s.flags.u = true ∨ ∃ d, s.delay = some d ∧ d.ret = true ∧ t.flags.u = true)

/-- Taking a maskable interrupt (R459). -/
def Obligations.InterruptTaken : Prop :=
  ∀ (s : State) (a : IrqAnswer) (rest : List IrqAnswer) (v : Byte),
    s.resume = none → s.inhibit = false → s.hwbreakPending = false → s.irqs = a :: rest →
    (a.nmi && s.flags.m) = false → a.irq = some v → s.flags.i = true →
    Plain s → Readable s (vectorAt s v.toNat) 4 → (loadBytes s.mem (vectorAt s v.toNat) 4).getLsbD 0 = false →
    ∃ t, step s = .next t ∧ MayHit s (handlerAt (loadBytes s.mem (vectorAt s v.toNat) 4)
      { trapped { s with irqs := rest } with sregs := { s.sregs with irp := s.pc } }) t

/-- Taking an NMI (R462, R451, R453; log 21). -/
def Obligations.NmiTaken : Prop :=
  ∀ (s : State) (a : IrqAnswer) (rest : List IrqAnswer),
    s.resume = none → s.inhibit = false → s.hwbreakPending = false → s.irqs = a :: rest →
    a.nmi = true → s.flags.m = true →
    Plain s → Readable s (vectorAt s 0x21) 4 → (loadBytes s.mem (vectorAt s 0x21) 4).getLsbD 0 = false →
    ∃ t, step s = .next t ∧ MayHit s (handlerAt (loadBytes s.mem (vectorAt s 0x21) 4)
      { trapped { s with irqs := rest } with
        sregs := { s.sregs with brp := s.pc }
        flags := { (trapped s).flags with m := false } }) t

/-- Taking a hardware breakpoint hit (R465, R453, R464; log 21). -/
def Obligations.BreakpointTaken : Prop :=
  ∀ s : State, s.resume = none → s.inhibit = false → s.hwbreakPending = true →
    Plain s → Readable s (vectorAt s 0x20) 4 → (loadBytes s.mem (vectorAt s 0x20) 4).getLsbD 0 = false →
    ∃ t, step s = .next t ∧ MayHit s (handlerAt (loadBytes s.mem (vectorAt s 0x20) 4)
      { trapped { s with irqs := s.irqs.tail } with
        sregs := { s.sregs with brp := s.pc }
        hwbreakPending := false }) t

/-- In the inhibit window no event is taken, and a hit is latched by the BAR comparison only (R50, R453, R464; log 21,
22). -/
def Obligations.WindowHoldsEvents : Prop :=
  (∀ (s : State) (a : IrqAnswer), s.inhibit = true → pendingEvent a s = none) ∧
  ∀ (s : State) (a : Word), noteBreakpoint a s =
    { s with hwbreakPending := s.hwbreakPending ||
        (s.flags.b && decide (a.toNat / 4 % 2 ^ 29 = s.sregs.bar.toNat / 4 % 2 ^ 29)) }

/-- A load in user mode that misses the TLB takes the bus fault, with its status record and MMU registers (R466, R481,
R482, R483, R484, R485, R486, R94, R95, R102, R103; log 8, 9, 23, 29). -/
def Obligations.ReadMissTakesBusFault : Prop :=
  ∀ (s : State) (d r : RegNo) (md : Bool) (pa : Word),
    s.mmu.enable = true → s.mmu.testMode = false → s.steps = [] → s.mmuMap = [] → s.outside = [] →
    s.resume = none → s.delay = none →
    s.mode = .user → s.flags.b = false → d ≠ 15#4 → isInline md r s = false →
    (s.prefixAddr.isSome = true → if md then r ≠ 15#4 else r = d) →
    (∀ k, ¬ TlbHit s (operandAddress r s) k) →
    s.mmu.kseg.getLsbD ((vectorAt s 0x2E).toNat / 2 ^ 28) = true → pa = linearPhysical s (vectorAt s 0x2E) →
    Readable s pa 4 → (loadBytes s.mem pa 4).getLsbD 0 = false →
    exec (.moveDMem d md r) s = .next (handlerAt (loadBytes s.mem pa 4)
      { trapped (missed (operandAddress r s) false s) with
        hidden :=
          { pc := pcPlus2 s, state := stateField true s, instr := encode (.moveDMem d md r), addr := operandAddress r s
            data := Config.freeWord s.freeCount }
        freeCount := s.freeCount + 1 })

/-- A store whose first cycle the single-step unit stops takes the bus fault and stores nothing (R466, R468, R481,
R482, R483, R484, R485, R486, R487, R207, R208; log 23, 33, 44). -/
def Obligations.WriteFaultKeepsMemory : Prop :=
  ∀ (s : State) (d r : RegNo) (md : Bool),
    s.mmu.enable = false → s.mmu.testMode = false → s.steps = [true] → s.mmuMap = [] → s.outside = [] →
    s.resume = none →
    (s.delay.isSome = true → s.prefixAddr = none ∧ isInline md d s = false) →
    (md = true → d = 15#4 → s.prefixAddr = none) → s.flags.b = false → storeSuppressed s = false →
    Readable s (vectorAt s 0x20) 4 → (loadBytes s.mem (vectorAt s 0x20) 4).getLsbD 0 = false →
    exec (.moveDStore r md d) s = .next (handlerAt (loadBytes s.mem (vectorAt s 0x20) 4)
      { trapped s with
        steps := []
        hidden :=
          { pc := pcField (endAddress md d 4 s) s, state := stateField true s, instr := encode (.moveDStore r md d)
            addr := operandAddress d s, data := readReg r s }
        freeCount := s.freeCount + 1 })

/-- A bus fault on the fetch of an instruction word (R466, R468, R482, R483, R485, R486, R487; log 9, 23). -/
def Obligations.FetchFaultRecord : Prop :=
  ∀ s : State, s.resume = none → pendingEvent (popIrq s).1 (popIrq s).2 = none → s.prefetch = none →
    s.pc.getLsbD 0 = false → s.mmu.enable = false → s.mmu.testMode = false → s.steps = [true] → s.mmuMap = [] →
    s.outside = [] → s.flags.b = false →
    Readable s (vectorAt s 0x20) 4 → (loadBytes s.mem (vectorAt s 0x20) 4).getLsbD 0 = false →
    step s = .next (handlerAt (loadBytes s.mem (vectorAt s 0x20) 4)
      { trapped { s with irqs := s.irqs.tail } with
        steps := []
        hidden :=
          { pc := pcField (s.pc + 2#32) s, state := stateField false s, instr := Config.freeHalf s.freeCount
            addr := s.pc, data := s.prefixAddr.getD (Config.freeWord s.freeCount) }
        freeCount := s.freeCount + 1 })

/-- A load that bus-faults and is restarted by RBF ends as if it had not faulted, but for F (R492, R490, R466, R431;
log 24, 9). -/
def Obligations.RestartTransparency : Prop :=
  ∀ (s : State) (d r : RegNo) (md : Bool),
    OperandReady md r 4 s → s.delay = none → isInline md r s = false → s.flags.b = false → d ≠ 15#4 →
    s.pc.getLsbD 0 = false → (s.prefixAddr.isSome = true → md = false → r = d) →
    Readable s (vectorAt s 0x20) 4 → (loadBytes s.mem (vectorAt s 0x20) 4).getLsbD 0 = false →
    ∃ t t₁ s₂, exec (.moveDMem d md r) { s with steps := [true] } = .next t ∧ exec (.moveDMem d md r) s = .next t₁ ∧
      restart (memoryForm (decodeWord t.hidden.instr)) t.hidden
        (restoreMode t.hidden { s with
          mode := .supervisor
          flags := { s.flags with u := decide (s.mode = .user), f := true, x := false }
          prefixAddr := none, hidden := t.hidden, freeCount := t.freeCount }) = .next s₂ ∧
      step s₂ = .next { t₁ with
        flags := { t₁.flags with f := true }
        hidden := t.hidden, freeCount := t.freeCount, prefetch := none
        stores := { t₁.stores with fresh := [] } }

/-- Linear-mapped segments: base field and unchanged offset, no exception (R96). -/
def Obligations.LinearMapping : Prop :=
  ∀ (s : State) (va : Word) (write : Bool), s.mmu.enable = true → Linear s va →
    Machine.translate va write s = .ok (linearPhysical s va) s ∧
    (linearPhysical s va).toNat = 2 ^ 28 * baseField s (va.toNat / 2 ^ 28) + va.toNat % 2 ^ 28

/-- Page-mapped addresses that one TLB entry hits without an exception (R94, R95, R97, R98, R99, R100, R101; log 29).
-/
def Obligations.PageMapping : Prop :=
  (∀ (s : State) (va : Word) (write : Bool), s.mmu.enable = false → s.mmu.testMode = false →
    Machine.translate va write s = .ok va s) ∧
  ∀ (s : State) (va : Word) (write : Bool) (k : Fin 4), s.mmu.enable = true → ¬ Linear s va → TlbHit s va k →
    (∀ j, TlbHit s va j → j = k) →
    (write = true → (entryAt s va k).we = true ∨ s.mmu.weExcp = false) →
    (s.mode = .user → (entryAt s va k).kernel = false ∨ s.mmu.accExcp = false) →
    ((entryAt s va k).valid = true ∨ s.mmu.invExcp = false) →
    ∃ pa, Machine.translate va write s = .ok pa s ∧
      pa.toNat = 2 ^ 13 * (entryAt s va k).pfn.toNat + va.toNat % 2 ^ 13

/-- TLB miss, write error, access violation, invalid page and multiple hits fault and are recorded; test mode with the
MMU off only records them (R99, R101, R102, R103, R104; log 29). -/
def Obligations.MmuExceptions : Prop :=
  (∀ (s : State) (va : Word) (write : Bool), s.mmu.enable = true → s.mmu.testMode = false → ¬ Linear s va →
    ((∀ k, ¬ TlbHit s va k) → Machine.translate va write s = .fault (missed va write s)) ∧
    (∀ (k : Fin 4) (inv acc we : Bool), TlbHit s va k → (∀ j, TlbHit s va j → j = k) →
      we = (write && !(entryAt s va k).we && s.mmu.weExcp) →
      acc = (decide (s.mode = .user) && (entryAt s va k).kernel && s.mmu.accExcp) →
      inv = (!(entryAt s va k).valid && s.mmu.invExcp) → (we || acc || inv) = true →
      Machine.translate va write s = .fault { s with
        mmu := { s.mmu with
          cause := causeFor s va write false inv acc we
          select := BitVec.ofNat 6 (16 * k.val + va.toNat / 2 ^ 13 % 16) } }) ∧
    (∀ j k : Fin 4, TlbHit s va j → TlbHit s va k → j ≠ k →
      Machine.translate va write s = .fault { s with
        mmu := { s.mmu with cause := causeFor s va write false false false false } })) ∧
  ∀ (s : State) (va : Word) (write : Bool), s.mmu.enable = false → s.mmu.testMode = true →
    ((∀ k, ¬ TlbHit s va k) → Machine.translate va write s = .ok va { s with
        mmu := { s.mmu with cause := causeFor s va write true false false false } }) ∧
    (∀ (k : Fin 4) (inv acc we : Bool), TlbHit s va k → (∀ j, TlbHit s va j → j = k) →
      we = (write && !(entryAt s va k).we && s.mmu.weExcp) →
      acc = (decide (s.mode = .user) && (entryAt s va k).kernel && s.mmu.accExcp) →
      inv = (!(entryAt s va k).valid && s.mmu.invExcp) →
      Machine.translate va write s = .ok va (if we || acc || inv then
        { s with mmu := { s.mmu with cause := causeFor s va write false inv acc we } } else s)) ∧
    (∀ j k : Fin 4, TlbHit s va j → TlbHit s va k → j ≠ k →
      Machine.translate va write s = .ok va { s with
        mmu := { s.mmu with cause := causeFor s va write false false false false } })

/-- Writing R_TLB_HI fills R_MMU_CAUSE, writing R_TLB_LO stores the whole entry (R60, R64, R59; log 6). -/
def Obligations.TlbWriteProtocol : Prop :=
  (∀ (m : Mmu) (v : Word) (a i j : Nat),
    mmuWrite { addr := a, bytes := 4, fields := [⟨.hiVpn, i⟩, ⟨.hiPageId, j⟩] } v m =
      .ok { m with cause := { m.cause with vpn := (v >>> i).setWidth 19, pageId := (v >>> j).setWidth 6 } }) ∧
  ∀ (m : Mmu) (v : Word) (a : Nat), ∃ m', mmuWrite
      { addr := a, bytes := 4, fields := [⟨.loPfn, 0⟩, ⟨.loWe, 19⟩, ⟨.loKernel, 20⟩, ⟨.loValid, 21⟩, ⟨.loGlobal, 22⟩] } v m =
        .ok m' ∧ m' = { m with tlb := m'.tlb } ∧
      m'.tlb[m.select.toNat] =
        { vpn := m.cause.vpn.extractLsb' 4 15, pageId := m.cause.pageId, pfn := v.extractLsb' 0 19
          global := v.getLsbD 22, valid := v.getLsbD 21, kernel := v.getLsbD 20, we := v.getLsbD 19 } ∧
      ∀ (i : Nat) (h : i < 64), i ≠ m.select.toNat → m'.tlb[i] = m.tlb[i]

/-- Accesses where nothing exists, stale instruction bytes, and an unreachable bus-fault vector stop (R82, R84, R91,
R469; log 4, 16, 20). -/
def Obligations.AccessesWithoutMeaningStop : Prop :=
  ((∀ (s : State) (d r : RegNo), Plain s → s.resume = none → s.delay = none → s.prefixAddr = none → d ≠ 15#4 →
    regionKind s (physIndex (readReg r s) 0) = none →
    exec (.moveBMem d false r) s = .refused (.unmappedPhysical (physIndex (readReg r s) 0))) ∧
  (∀ (s : State) (d r : RegNo), Plain s → s.resume = none → s.delay = none → s.prefixAddr = none →
    storeSuppressed s = false → regionKind s (physIndex (readReg d s) 0) = some .rom →
    exec (.moveBStore r false d) s = .refused (.romWrite (physIndex (readReg d s) 0))) ∧
  (∀ s : State, Plain s → s.resume = none → pendingEvent (popIrq s).1 (popIrq s).2 = none → s.prefetch = none →
    s.pc.getLsbD 0 = false → Readable s s.pc 4 → (staleByte s.stores s.pc 0 || staleByte s.stores s.pc 1) = true →
    step s = .refused (.selfModifiedCode (physIndex s.pc (if staleByte s.stores s.pc 0 then 0 else 1))))) ∧
  (∀ (s : State) (b : BusFault), b.single = false → s.mmu.enable = true → s.mmu.testMode = false → s.steps = [] →
    s.mmu.kseg.getLsbD ((vectorAt s 0x2E).toNat / 2 ^ 28) = false → (∀ k, ¬ TlbHit s (vectorAt s 0x2E) k) →
    takeException (.busFault b) s = .fault .busFaultLoop)

/-- A transfer of control to an odd address stops (R32, R30, R31, R459; log 19). -/
def Obligations.OddTargetsStop : Prop :=
  (∀ (s : State) (r : RegNo), s.prefixAddr = none → s.delay = none → (readReg r s).getLsbD 0 = true →
    exec (.jumpReg r) s = .fault (.oddTarget (readReg r s)) ∧
    exec (.jircReg r) s = .fault (.oddTarget (readReg r s)) ∧
    exec (.jsrcReg r) s = .fault (.oddTarget (readReg r s)) ∧
    exec (.jbrcReg r) s = .fault (.oddTarget (readReg r s)) ∧
    exec (.jirReg r) s = .fault (.oddTarget (readReg r s)) ∧
    exec (.jsrReg r) s = .fault (.oddTarget (readReg r s))) ∧
  (∀ (s : State) (r : RegNo) (md : Bool), OperandReady md r 4 s → s.delay = none → (memoryValue r 4 s).getLsbD 0 = true →
    exec (.jump md r) s = .fault (.oddTarget (memoryValue r 4 s)) ∧
    exec (.jirc md r) s = .fault (.oddTarget (memoryValue r 4 s)) ∧
    exec (.jsrc md r) s = .fault (.oddTarget (memoryValue r 4 s)) ∧
    exec (.jbrc md r) s = .fault (.oddTarget (memoryValue r 4 s)) ∧
    exec (.jir md r) s = .fault (.oddTarget (memoryValue r 4 s)) ∧
    exec (.jsr md r) s = .fault (.oddTarget (memoryValue r 4 s)) ∧
    exec (.jmpu md r) s = .fault (.oddTarget (memoryValue r 4 s))) ∧
  (∀ (s : State) (r : RegNo), Plain s → s.resume = none → s.delay = none → Readable s (operandAddress r s) 64 →
    (loadBytes s.mem (operandAddress r s) 4).getLsbD 0 = true →
    exec (.movemLoad 15#4 false r) s = .fault (.oddTarget (loadBytes s.mem (operandAddress r s) 4))) ∧
  (∀ (s : State) (t : Delay), s.prefixAddr = none → s.delay = some t → t.target.getLsbD 0 = true →
    exec .nop s = .fault (.oddTarget t.target)) ∧
  ∀ s : State, s.resume = none → s.inhibit = false → s.hwbreakPending = true → Plain s → Readable s (vectorAt s 0x20) 4 →
    (loadBytes s.mem (vectorAt s 0x20) 4).getLsbD 0 = true →
    step s = .fault (.oddTarget (loadBytes s.mem (vectorAt s 0x20) 4))

/-- PC where the sources give it no meaning stops: as an unsupported destination, read beside in-line data, or
assigned (R30, R29, R215; log 18). -/
def Obligations.UnsupportedPcUsesStop : Prop :=
  (∀ (s : State) (r : RegNo) (c : BitVec 5) (o : BitVec 4) (e : Cond), s.prefixAddr = none →
    exec (.addiB r 15#4) s = .refused .pcDestination ∧
    exec (.addiW r 15#4) s = .refused .pcDestination ∧
    exec (.addiD r 15#4) s = .refused .pcDestination ∧
    exec (.boundBReg 15#4 r) s = .refused .pcDestination ∧
    exec (.boundWReg 15#4 r) s = .refused .pcDestination ∧
    exec (.boundDReg 15#4 r) s = .refused .pcDestination ∧
    exec (.dstep 15#4 r) s = .refused .pcDestination ∧
    exec (.mstep 15#4 r) s = .refused .pcDestination ∧
    exec (.lslBReg 15#4 r) s = .refused .pcDestination ∧
    exec (.lslWReg 15#4 r) s = .refused .pcDestination ∧
    exec (.lslDReg 15#4 r) s = .refused .pcDestination ∧
    exec (.lsrBReg 15#4 r) s = .refused .pcDestination ∧
    exec (.lsrWReg 15#4 r) s = .refused .pcDestination ∧
    exec (.lsrDReg 15#4 r) s = .refused .pcDestination ∧
    exec (.lslq 15#4 c) s = .refused .pcDestination ∧
    exec (.lsrq 15#4 c) s = .refused .pcDestination ∧
    exec (.negBReg 15#4 r) s = .refused .pcDestination ∧
    exec (.negWReg 15#4 r) s = .refused .pcDestination ∧
    exec (.negDReg 15#4 r) s = .refused .pcDestination ∧
    exec (.mulsB 15#4 r) s = .refused .pcDestination ∧
    exec (.mulsW 15#4 r) s = .refused .pcDestination ∧
    exec (.mulsD 15#4 r) s = .refused .pcDestination ∧
    exec (.muluB 15#4 r) s = .refused .pcDestination ∧
    exec (.muluW 15#4 r) s = .refused .pcDestination ∧
    exec (.muluD 15#4 r) s = .refused .pcDestination ∧
    exec (.notReg 15#4) s = .refused .pcDestination ∧
    exec (.swap o 15#4) s = .refused .pcDestination ∧
    exec (.scc e 15#4) s = .refused .pcDestination) ∧
  (∀ (s : State) (md : Bool) (r : RegNo),
    exec (.boundBMem 15#4 md r) s = .refused .pcDestination ∧
    exec (.boundWMem 15#4 md r) s = .refused .pcDestination ∧
    exec (.boundDMem 15#4 md r) s = .refused .pcDestination) ∧
  (∀ s : State, s.prefixAddr = none →
    exec (.addBMem 15#4 true 15#4) s = .refused .pcReadWithInlineData ∧
    exec (.addWMem 15#4 true 15#4) s = .refused .pcReadWithInlineData ∧
    exec (.addDMem 15#4 true 15#4) s = .refused .pcReadWithInlineData ∧
    exec (.subBMem 15#4 true 15#4) s = .refused .pcReadWithInlineData ∧
    exec (.subWMem 15#4 true 15#4) s = .refused .pcReadWithInlineData ∧
    exec (.subDMem 15#4 true 15#4) s = .refused .pcReadWithInlineData ∧
    exec (.andBMem 15#4 true 15#4) s = .refused .pcReadWithInlineData ∧
    exec (.andWMem 15#4 true 15#4) s = .refused .pcReadWithInlineData ∧
    exec (.andDMem 15#4 true 15#4) s = .refused .pcReadWithInlineData ∧
    exec (.orBMem 15#4 true 15#4) s = .refused .pcReadWithInlineData ∧
    exec (.orWMem 15#4 true 15#4) s = .refused .pcReadWithInlineData ∧
    exec (.orDMem 15#4 true 15#4) s = .refused .pcReadWithInlineData ∧
    exec (.adduBMem 15#4 true 15#4) s = .refused .pcReadWithInlineData ∧
    exec (.adduWMem 15#4 true 15#4) s = .refused .pcReadWithInlineData ∧
    exec (.addsBMem 15#4 true 15#4) s = .refused .pcReadWithInlineData ∧
    exec (.addsWMem 15#4 true 15#4) s = .refused .pcReadWithInlineData ∧
    exec (.subuBMem 15#4 true 15#4) s = .refused .pcReadWithInlineData ∧
    exec (.subuWMem 15#4 true 15#4) s = .refused .pcReadWithInlineData ∧
    exec (.subsBMem 15#4 true 15#4) s = .refused .pcReadWithInlineData ∧
    exec (.subsWMem 15#4 true 15#4) s = .refused .pcReadWithInlineData ∧
    exec (.cmpBMem 15#4 true 15#4) s = .refused .pcReadWithInlineData ∧
    exec (.cmpWMem 15#4 true 15#4) s = .refused .pcReadWithInlineData ∧
    exec (.cmpDMem 15#4 true 15#4) s = .refused .pcReadWithInlineData ∧
    exec (.cmpuBMem 15#4 true 15#4) s = .refused .pcReadWithInlineData ∧
    exec (.cmpuWMem 15#4 true 15#4) s = .refused .pcReadWithInlineData ∧
    exec (.cmpsBMem 15#4 true 15#4) s = .refused .pcReadWithInlineData ∧
    exec (.cmpsWMem 15#4 true 15#4) s = .refused .pcReadWithInlineData) ∧
  (∀ (s : State) (d : RegNo), s.prefixAddr.isSome = true →
    exec (.boundBMem d false 15#4) s = .refused .pcDestination ∧
    exec (.boundWMem d false 15#4) s = .refused .pcDestination ∧
    exec (.boundDMem d false 15#4) s = .refused .pcDestination) ∧
  ∀ (s : State) (d : RegNo) (p : SReg), s.prefixAddr.isSome = true → s.delay = none →
    exec (.addBMem d true 15#4) s = .refused .assignToPc ∧
    exec (.addWMem d true 15#4) s = .refused .assignToPc ∧
    exec (.addDMem d true 15#4) s = .refused .assignToPc ∧
    exec (.subBMem d true 15#4) s = .refused .assignToPc ∧
    exec (.subWMem d true 15#4) s = .refused .assignToPc ∧
    exec (.subDMem d true 15#4) s = .refused .assignToPc ∧
    exec (.andBMem d true 15#4) s = .refused .assignToPc ∧
    exec (.andWMem d true 15#4) s = .refused .assignToPc ∧
    exec (.andDMem d true 15#4) s = .refused .assignToPc ∧
    exec (.orBMem d true 15#4) s = .refused .assignToPc ∧
    exec (.orWMem d true 15#4) s = .refused .assignToPc ∧
    exec (.orDMem d true 15#4) s = .refused .assignToPc ∧
    exec (.adduBMem d true 15#4) s = .refused .assignToPc ∧
    exec (.adduWMem d true 15#4) s = .refused .assignToPc ∧
    exec (.addsBMem d true 15#4) s = .refused .assignToPc ∧
    exec (.addsWMem d true 15#4) s = .refused .assignToPc ∧
    exec (.subuBMem d true 15#4) s = .refused .assignToPc ∧
    exec (.subuWMem d true 15#4) s = .refused .assignToPc ∧
    exec (.subsBMem d true 15#4) s = .refused .assignToPc ∧
    exec (.subsWMem d true 15#4) s = .refused .assignToPc ∧
    exec (.cmpBMem d true 15#4) s = .refused .assignToPc ∧
    exec (.cmpWMem d true 15#4) s = .refused .assignToPc ∧
    exec (.cmpDMem d true 15#4) s = .refused .assignToPc ∧
    exec (.cmpuBMem d true 15#4) s = .refused .assignToPc ∧
    exec (.cmpuWMem d true 15#4) s = .refused .assignToPc ∧
    exec (.cmpsBMem d true 15#4) s = .refused .assignToPc ∧
    exec (.cmpsWMem d true 15#4) s = .refused .assignToPc ∧
    exec (.moveBMem d true 15#4) s = .refused .assignToPc ∧
    exec (.moveWMem d true 15#4) s = .refused .assignToPc ∧
    exec (.moveDMem d true 15#4) s = .refused .assignToPc ∧
    exec (.movuBMem d true 15#4) s = .refused .assignToPc ∧
    exec (.movuWMem d true 15#4) s = .refused .assignToPc ∧
    exec (.movsBMem d true 15#4) s = .refused .assignToPc ∧
    exec (.movsWMem d true 15#4) s = .refused .assignToPc ∧
    exec (.moveBStore d true 15#4) s = .refused .assignToPc ∧
    exec (.moveWStore d true 15#4) s = .refused .assignToPc ∧
    exec (.moveDStore d true 15#4) s = .refused .assignToPc ∧
    exec (.testBMem true 15#4) s = .refused .assignToPc ∧
    exec (.testWMem true 15#4) s = .refused .assignToPc ∧
    exec (.testDMem true 15#4) s = .refused .assignToPc ∧
    exec (.clearBMem true 15#4) s = .refused .assignToPc ∧
    exec (.clearWMem true 15#4) s = .refused .assignToPc ∧
    exec (.clearDMem true 15#4) s = .refused .assignToPc ∧
    exec (.sbfs true 15#4) s = .refused .assignToPc ∧
    exec (.rbf true 15#4) s = .refused .assignToPc ∧
    exec (.jump true 15#4) s = .refused .assignToPc ∧
    exec (.jirc true 15#4) s = .refused .assignToPc ∧
    exec (.jsrc true 15#4) s = .refused .assignToPc ∧
    exec (.jbrc true 15#4) s = .refused .assignToPc ∧
    exec (.jir true 15#4) s = .refused .assignToPc ∧
    exec (.jsr true 15#4) s = .refused .assignToPc ∧
    exec (.jmpu true 15#4) s = .refused .assignToPc ∧
    (d ≠ 15#4 →
      exec (.boundBMem d true 15#4) s = .refused .assignToPc ∧
      exec (.boundWMem d true 15#4) s = .refused .assignToPc ∧
      exec (.boundDMem d true 15#4) s = .refused .assignToPc) ∧
    (sregSize p ≠ none →
      exec (.moveToSpecialMem p true 15#4) s = .refused .assignToPc ∧
      exec (.moveFromSpecialMem p true 15#4) s = .refused .assignToPc) ∧
    (restartCycle s = none → exec (.movemStore d true 15#4) s = .refused .assignToPc ∧
      (d ≠ 15#4 → exec (.movemLoad d true 15#4) s = .refused .assignToPc))

/-- A prefix before a word that has no memory operand stops (R152, R214; log 18). -/
def Obligations.UnusablePrefixStops : Prop :=
  ∀ (s : State) (d r : RegNo) (j : BitVec 6) (c : BitVec 5) (o n : BitVec 4) (k : BitVec 8) (e : Cond) (p : SReg),
    s.prefixAddr.isSome = true → s.delay = none →
    exec (.addq d j) s = .refused .prefixUnusable ∧
    exec (.subq d j) s = .refused .prefixUnusable ∧
    exec (.moveq d j) s = .refused .prefixUnusable ∧
    exec (.cmpq d j) s = .refused .prefixUnusable ∧
    exec (.andq d j) s = .refused .prefixUnusable ∧
    exec (.orq d j) s = .refused .prefixUnusable ∧
    exec (.btstq d c) s = .refused .prefixUnusable ∧
    exec (.asrq d c) s = .refused .prefixUnusable ∧
    exec (.lslq d c) s = .refused .prefixUnusable ∧
    exec (.lsrq d c) s = .refused .prefixUnusable ∧
    exec (.addBReg d r) s = .refused .prefixUnusable ∧
    exec (.addWReg d r) s = .refused .prefixUnusable ∧
    exec (.addDReg d r) s = .refused .prefixUnusable ∧
    exec (.subBReg d r) s = .refused .prefixUnusable ∧
    exec (.subWReg d r) s = .refused .prefixUnusable ∧
    exec (.subDReg d r) s = .refused .prefixUnusable ∧
    exec (.cmpBReg d r) s = .refused .prefixUnusable ∧
    exec (.cmpWReg d r) s = .refused .prefixUnusable ∧
    exec (.cmpDReg d r) s = .refused .prefixUnusable ∧
    exec (.andBReg d r) s = .refused .prefixUnusable ∧
    exec (.andWReg d r) s = .refused .prefixUnusable ∧
    exec (.andDReg d r) s = .refused .prefixUnusable ∧
    exec (.orBReg d r) s = .refused .prefixUnusable ∧
    exec (.orWReg d r) s = .refused .prefixUnusable ∧
    exec (.orDReg d r) s = .refused .prefixUnusable ∧
    exec (.moveBReg d r) s = .refused .prefixUnusable ∧
    exec (.moveWReg d r) s = .refused .prefixUnusable ∧
    exec (.moveDReg d r) s = .refused .prefixUnusable ∧
    exec (.boundBReg d r) s = .refused .prefixUnusable ∧
    exec (.boundWReg d r) s = .refused .prefixUnusable ∧
    exec (.boundDReg d r) s = .refused .prefixUnusable ∧
    exec (.negBReg d r) s = .refused .prefixUnusable ∧
    exec (.negWReg d r) s = .refused .prefixUnusable ∧
    exec (.negDReg d r) s = .refused .prefixUnusable ∧
    exec (.lslBReg d r) s = .refused .prefixUnusable ∧
    exec (.lslWReg d r) s = .refused .prefixUnusable ∧
    exec (.lslDReg d r) s = .refused .prefixUnusable ∧
    exec (.asrBReg d r) s = .refused .prefixUnusable ∧
    exec (.asrWReg d r) s = .refused .prefixUnusable ∧
    exec (.asrDReg d r) s = .refused .prefixUnusable ∧
    exec (.lsrBReg d r) s = .refused .prefixUnusable ∧
    exec (.lsrWReg d r) s = .refused .prefixUnusable ∧
    exec (.lsrDReg d r) s = .refused .prefixUnusable ∧
    exec (.adduBReg d r) s = .refused .prefixUnusable ∧
    exec (.adduWReg d r) s = .refused .prefixUnusable ∧
    exec (.addsBReg d r) s = .refused .prefixUnusable ∧
    exec (.addsWReg d r) s = .refused .prefixUnusable ∧
    exec (.subuBReg d r) s = .refused .prefixUnusable ∧
    exec (.subuWReg d r) s = .refused .prefixUnusable ∧
    exec (.subsBReg d r) s = .refused .prefixUnusable ∧
    exec (.subsWReg d r) s = .refused .prefixUnusable ∧
    exec (.movuBReg d r) s = .refused .prefixUnusable ∧
    exec (.movuWReg d r) s = .refused .prefixUnusable ∧
    exec (.movsBReg d r) s = .refused .prefixUnusable ∧
    exec (.movsWReg d r) s = .refused .prefixUnusable ∧
    exec (.testBReg r) s = .refused .prefixUnusable ∧
    exec (.testWReg r) s = .refused .prefixUnusable ∧
    exec (.testDReg r) s = .refused .prefixUnusable ∧
    exec (.addiB r d) s = .refused .prefixUnusable ∧
    exec (.addiW r d) s = .refused .prefixUnusable ∧
    exec (.addiD r d) s = .refused .prefixUnusable ∧
    exec (.abs d r) s = .refused .prefixUnusable ∧
    exec (.dstep d r) s = .refused .prefixUnusable ∧
    exec (.mstep d r) s = .refused .prefixUnusable ∧
    exec (.lz d r) s = .refused .prefixUnusable ∧
    exec (.xor d r) s = .refused .prefixUnusable ∧
    exec (.btst d r) s = .refused .prefixUnusable ∧
    exec (.swap o d) s = .refused .prefixUnusable ∧
    exec (.notReg d) s = .refused .prefixUnusable ∧
    exec (.scc e d) s = .refused .prefixUnusable ∧
    exec (.mulsB d r) s = .refused .prefixUnusable ∧
    exec (.mulsW d r) s = .refused .prefixUnusable ∧
    exec (.mulsD d r) s = .refused .prefixUnusable ∧
    exec (.muluB d r) s = .refused .prefixUnusable ∧
    exec (.muluW d r) s = .refused .prefixUnusable ∧
    exec (.muluD d r) s = .refused .prefixUnusable ∧
    exec .nop s = .refused .prefixUnusable ∧
    exec (.setf k) s = .refused .prefixUnusable ∧
    exec (.clearf k) s = .refused .prefixUnusable ∧
    exec .ax s = .refused .prefixUnusable ∧
    exec .ei s = .refused .prefixUnusable ∧
    exec .di s = .refused .prefixUnusable ∧
    exec (.bcc e k) s = .refused .prefixUnusable ∧
    exec (.bcc16 e) s = .refused .prefixUnusable ∧
    exec (.breakN n) s = .refused .prefixUnusable ∧
    exec (.jumpReg r) s = .refused .prefixUnusable ∧
    exec (.jircReg r) s = .refused .prefixUnusable ∧
    exec (.jsrcReg r) s = .refused .prefixUnusable ∧
    exec (.jbrcReg r) s = .refused .prefixUnusable ∧
    exec (.jirReg r) s = .refused .prefixUnusable ∧
    exec (.jsrReg r) s = .refused .prefixUnusable ∧
    exec (.moveToSpecial p r) s = .refused .prefixUnusable ∧
    exec (.moveFromSpecial p d) s = .refused .prefixUnusable ∧
    exec (.clearBReg d) s = .refused .prefixUnusable ∧
    exec (.clearWReg d) s = .refused .prefixUnusable ∧
    exec (.clearDReg d) s = .refused .prefixUnusable ∧
    exec .ret s = .refused .prefixUnusable ∧
    exec .retb s = .refused .prefixUnusable ∧
    exec .reti s = .refused .prefixUnusable ∧
    exec (.bdapByte d k) s = .refused .prefixUnusable

/-- A word that may not stand in the slot of a taken transfer stops (R404, R426, R31, R240; log 18). -/
def Obligations.ForbiddenSlotWordsStop : Prop :=
  (∀ (s : State) (d r : RegNo) (md : Bool) (n : BitVec 4) (k : BitVec 8) (e : Cond),
    s.delay.isSome = true → s.prefixAddr = none →
    exec (.bcc e k) s = .refused .forbiddenInDelaySlot ∧
    exec (.bcc16 e) s = .refused .forbiddenInDelaySlot ∧
    exec (.breakN n) s = .refused .forbiddenInDelaySlot ∧
    exec (.jumpReg r) s = .refused .forbiddenInDelaySlot ∧
    exec (.jircReg r) s = .refused .forbiddenInDelaySlot ∧
    exec (.jsrcReg r) s = .refused .forbiddenInDelaySlot ∧
    exec (.jbrcReg r) s = .refused .forbiddenInDelaySlot ∧
    exec (.jirReg r) s = .refused .forbiddenInDelaySlot ∧
    exec (.jsrReg r) s = .refused .forbiddenInDelaySlot ∧
    exec (.jump md r) s = .refused .forbiddenInDelaySlot ∧
    exec (.jirc md r) s = .refused .forbiddenInDelaySlot ∧
    exec (.jsrc md r) s = .refused .forbiddenInDelaySlot ∧
    exec (.jbrc md r) s = .refused .forbiddenInDelaySlot ∧
    exec (.jir md r) s = .refused .forbiddenInDelaySlot ∧
    exec (.jsr md r) s = .refused .forbiddenInDelaySlot ∧
    exec (.jmpu md r) s = .refused .forbiddenInDelaySlot ∧
    exec (.bdapByte d k) s = .refused .forbiddenInDelaySlot ∧
    exec (.biapB r d) s = .refused .forbiddenInDelaySlot ∧
    exec (.biapW r d) s = .refused .forbiddenInDelaySlot ∧
    exec (.biapD r d) s = .refused .forbiddenInDelaySlot ∧
    exec (.bdapB d md r) s = .refused .forbiddenInDelaySlot ∧
    exec (.bdapW d md r) s = .refused .forbiddenInDelaySlot ∧
    exec (.bdapD d md r) s = .refused .forbiddenInDelaySlot ∧
    exec (.dip md r) s = .refused .forbiddenInDelaySlot ∧
    exec (.rbf md r) s = .refused .forbiddenInDelaySlot ∧
    exec .ret s = .refused .forbiddenInDelaySlot ∧
    exec (.clearBReg 15#4) s = .refused .forbiddenInDelaySlot ∧
    exec (.clearWReg 15#4) s = .refused .forbiddenInDelaySlot ∧
    exec (.clearDReg 15#4) s = .refused .forbiddenInDelaySlot) ∧
  (∀ (s : State) (p : SReg), s.delay.isSome = true → s.prefixAddr = none → sregSize p ≠ none → p ≠ .irp → p ≠ .brp →
    exec (.moveFromSpecial p 15#4) s = .refused .forbiddenInDelaySlot) ∧
  (∀ (s : State) (r : RegNo) (j : BitVec 6) (c : BitVec 5), s.delay.isSome = true → s.prefixAddr = none →
    exec (.addq 15#4 j) s = .refused .forbiddenInDelaySlot ∧
    exec (.subq 15#4 j) s = .refused .forbiddenInDelaySlot ∧
    exec (.moveq 15#4 j) s = .refused .forbiddenInDelaySlot ∧
    exec (.andq 15#4 j) s = .refused .forbiddenInDelaySlot ∧
    exec (.orq 15#4 j) s = .refused .forbiddenInDelaySlot ∧
    exec (.asrq 15#4 c) s = .refused .forbiddenInDelaySlot ∧
    exec (.addBReg 15#4 r) s = .refused .forbiddenInDelaySlot ∧
    exec (.addWReg 15#4 r) s = .refused .forbiddenInDelaySlot ∧
    exec (.addDReg 15#4 r) s = .refused .forbiddenInDelaySlot ∧
    exec (.subBReg 15#4 r) s = .refused .forbiddenInDelaySlot ∧
    exec (.subWReg 15#4 r) s = .refused .forbiddenInDelaySlot ∧
    exec (.subDReg 15#4 r) s = .refused .forbiddenInDelaySlot ∧
    exec (.andBReg 15#4 r) s = .refused .forbiddenInDelaySlot ∧
    exec (.andWReg 15#4 r) s = .refused .forbiddenInDelaySlot ∧
    exec (.andDReg 15#4 r) s = .refused .forbiddenInDelaySlot ∧
    exec (.orBReg 15#4 r) s = .refused .forbiddenInDelaySlot ∧
    exec (.orWReg 15#4 r) s = .refused .forbiddenInDelaySlot ∧
    exec (.orDReg 15#4 r) s = .refused .forbiddenInDelaySlot ∧
    exec (.asrBReg 15#4 r) s = .refused .forbiddenInDelaySlot ∧
    exec (.asrWReg 15#4 r) s = .refused .forbiddenInDelaySlot ∧
    exec (.asrDReg 15#4 r) s = .refused .forbiddenInDelaySlot ∧
    exec (.adduBReg 15#4 r) s = .refused .forbiddenInDelaySlot ∧
    exec (.adduWReg 15#4 r) s = .refused .forbiddenInDelaySlot ∧
    exec (.addsBReg 15#4 r) s = .refused .forbiddenInDelaySlot ∧
    exec (.addsWReg 15#4 r) s = .refused .forbiddenInDelaySlot ∧
    exec (.subuBReg 15#4 r) s = .refused .forbiddenInDelaySlot ∧
    exec (.subuWReg 15#4 r) s = .refused .forbiddenInDelaySlot ∧
    exec (.subsBReg 15#4 r) s = .refused .forbiddenInDelaySlot ∧
    exec (.subsWReg 15#4 r) s = .refused .forbiddenInDelaySlot ∧
    exec (.movuBReg 15#4 r) s = .refused .forbiddenInDelaySlot ∧
    exec (.movuWReg 15#4 r) s = .refused .forbiddenInDelaySlot ∧
    exec (.movsBReg 15#4 r) s = .refused .forbiddenInDelaySlot ∧
    exec (.movsWReg 15#4 r) s = .refused .forbiddenInDelaySlot ∧
    exec (.moveBReg 15#4 r) s = .refused .forbiddenInDelaySlot ∧
    exec (.moveWReg 15#4 r) s = .refused .forbiddenInDelaySlot ∧
    exec (.moveDReg 15#4 r) s = .refused .forbiddenInDelaySlot ∧
    exec (.abs 15#4 r) s = .refused .forbiddenInDelaySlot ∧
    exec (.lz 15#4 r) s = .refused .forbiddenInDelaySlot ∧
    exec (.xor 15#4 r) s = .refused .forbiddenInDelaySlot) ∧
  (∀ (s : State) (r : RegNo) (md : Bool), s.delay.isSome = true → s.prefixAddr = none → isInline md r s = false →
    exec (.addBMem 15#4 md r) s = .refused .forbiddenInDelaySlot ∧
    exec (.addWMem 15#4 md r) s = .refused .forbiddenInDelaySlot ∧
    exec (.addDMem 15#4 md r) s = .refused .forbiddenInDelaySlot ∧
    exec (.subBMem 15#4 md r) s = .refused .forbiddenInDelaySlot ∧
    exec (.subWMem 15#4 md r) s = .refused .forbiddenInDelaySlot ∧
    exec (.subDMem 15#4 md r) s = .refused .forbiddenInDelaySlot ∧
    exec (.andBMem 15#4 md r) s = .refused .forbiddenInDelaySlot ∧
    exec (.andWMem 15#4 md r) s = .refused .forbiddenInDelaySlot ∧
    exec (.andDMem 15#4 md r) s = .refused .forbiddenInDelaySlot ∧
    exec (.orBMem 15#4 md r) s = .refused .forbiddenInDelaySlot ∧
    exec (.orWMem 15#4 md r) s = .refused .forbiddenInDelaySlot ∧
    exec (.orDMem 15#4 md r) s = .refused .forbiddenInDelaySlot ∧
    exec (.adduBMem 15#4 md r) s = .refused .forbiddenInDelaySlot ∧
    exec (.adduWMem 15#4 md r) s = .refused .forbiddenInDelaySlot ∧
    exec (.addsBMem 15#4 md r) s = .refused .forbiddenInDelaySlot ∧
    exec (.addsWMem 15#4 md r) s = .refused .forbiddenInDelaySlot ∧
    exec (.subuBMem 15#4 md r) s = .refused .forbiddenInDelaySlot ∧
    exec (.subuWMem 15#4 md r) s = .refused .forbiddenInDelaySlot ∧
    exec (.subsBMem 15#4 md r) s = .refused .forbiddenInDelaySlot ∧
    exec (.subsWMem 15#4 md r) s = .refused .forbiddenInDelaySlot ∧
    exec (.moveBMem 15#4 md r) s = .refused .forbiddenInDelaySlot ∧
    exec (.moveWMem 15#4 md r) s = .refused .forbiddenInDelaySlot ∧
    exec (.moveDMem 15#4 md r) s = .refused .forbiddenInDelaySlot ∧
    exec (.movuBMem 15#4 md r) s = .refused .forbiddenInDelaySlot ∧
    exec (.movuWMem 15#4 md r) s = .refused .forbiddenInDelaySlot ∧
    exec (.movsBMem 15#4 md r) s = .refused .forbiddenInDelaySlot ∧
    exec (.movsWMem 15#4 md r) s = .refused .forbiddenInDelaySlot ∧
    exec (.popReg 15#4) s = .refused .forbiddenInDelaySlot ∧
    exec (.movemLoad 15#4 false r) s = .refused .forbiddenInDelaySlot) ∧
  (∀ (s : State) (d r : RegNo) (md : Bool) (p : SReg), s.delay.isSome = true →
    (s.prefixAddr.isSome = true ∨ isInline md r s = true) →
    (∃ x, exec (.addBMem d md r) s = .refused x) ∧
    (∃ x, exec (.addWMem d md r) s = .refused x) ∧
    (∃ x, exec (.addDMem d md r) s = .refused x) ∧
    (∃ x, exec (.subBMem d md r) s = .refused x) ∧
    (∃ x, exec (.subWMem d md r) s = .refused x) ∧
    (∃ x, exec (.subDMem d md r) s = .refused x) ∧
    (∃ x, exec (.andBMem d md r) s = .refused x) ∧
    (∃ x, exec (.andWMem d md r) s = .refused x) ∧
    (∃ x, exec (.andDMem d md r) s = .refused x) ∧
    (∃ x, exec (.orBMem d md r) s = .refused x) ∧
    (∃ x, exec (.orWMem d md r) s = .refused x) ∧
    (∃ x, exec (.orDMem d md r) s = .refused x) ∧
    (∃ x, exec (.adduBMem d md r) s = .refused x) ∧
    (∃ x, exec (.adduWMem d md r) s = .refused x) ∧
    (∃ x, exec (.addsBMem d md r) s = .refused x) ∧
    (∃ x, exec (.addsWMem d md r) s = .refused x) ∧
    (∃ x, exec (.subuBMem d md r) s = .refused x) ∧
    (∃ x, exec (.subuWMem d md r) s = .refused x) ∧
    (∃ x, exec (.subsBMem d md r) s = .refused x) ∧
    (∃ x, exec (.subsWMem d md r) s = .refused x) ∧
    (∃ x, exec (.cmpBMem d md r) s = .refused x) ∧
    (∃ x, exec (.cmpWMem d md r) s = .refused x) ∧
    (∃ x, exec (.cmpDMem d md r) s = .refused x) ∧
    (∃ x, exec (.cmpuBMem d md r) s = .refused x) ∧
    (∃ x, exec (.cmpuWMem d md r) s = .refused x) ∧
    (∃ x, exec (.cmpsBMem d md r) s = .refused x) ∧
    (∃ x, exec (.cmpsWMem d md r) s = .refused x) ∧
    (∃ x, exec (.boundBMem d md r) s = .refused x) ∧
    (∃ x, exec (.boundWMem d md r) s = .refused x) ∧
    (∃ x, exec (.boundDMem d md r) s = .refused x) ∧
    (∃ x, exec (.moveBMem d md r) s = .refused x) ∧
    (∃ x, exec (.moveWMem d md r) s = .refused x) ∧
    (∃ x, exec (.moveDMem d md r) s = .refused x) ∧
    (∃ x, exec (.movuBMem d md r) s = .refused x) ∧
    (∃ x, exec (.movuWMem d md r) s = .refused x) ∧
    (∃ x, exec (.movsBMem d md r) s = .refused x) ∧
    (∃ x, exec (.movsWMem d md r) s = .refused x) ∧
    (∃ x, exec (.testBMem md r) s = .refused x) ∧
    (∃ x, exec (.testWMem md r) s = .refused x) ∧
    (∃ x, exec (.testDMem md r) s = .refused x) ∧
    (∃ x, exec (.moveBStore d md r) s = .refused x) ∧
    (∃ x, exec (.moveWStore d md r) s = .refused x) ∧
    (∃ x, exec (.moveDStore d md r) s = .refused x) ∧
    (∃ x, exec (.clearBMem md r) s = .refused x) ∧
    (∃ x, exec (.clearWMem md r) s = .refused x) ∧
    (∃ x, exec (.clearDMem md r) s = .refused x) ∧
    (∃ x, exec (.moveToSpecialMem p md r) s = .refused x) ∧
    (∃ x, exec (.moveFromSpecialMem p md r) s = .refused x) ∧
    (∃ x, exec (.movemLoad d md r) s = .refused x) ∧
    (∃ x, exec (.movemStore d md r) s = .refused x) ∧
    (∃ x, exec (.sbfs md r) s = .refused x) ∧
    (∃ x, exec (.jump md r) s = .refused x) ∧
    (∃ x, exec (.jirc md r) s = .refused x) ∧
    (∃ x, exec (.jsrc md r) s = .refused x) ∧
    (∃ x, exec (.jbrc md r) s = .refused x) ∧
    (∃ x, exec (.jir md r) s = .refused x) ∧
    (∃ x, exec (.jsr md r) s = .refused x) ∧
    (∃ x, exec (.jmpu md r) s = .refused x) ∧
    (∃ x, exec (.rbf md r) s = .refused x)) ∧
  (∀ (s : State) (d r : RegNo) (md : Bool) (p : SReg), s.delay.isSome = true →
    (s.prefixAddr.isSome = true ∨ isInline md r s = true) →
    ((d = 15#4 → isInline md r s = false) →
      exec (.addBMem d md r) s = .refused .forbiddenInDelaySlot ∧
      exec (.addWMem d md r) s = .refused .forbiddenInDelaySlot ∧
      exec (.addDMem d md r) s = .refused .forbiddenInDelaySlot ∧
      exec (.subBMem d md r) s = .refused .forbiddenInDelaySlot ∧
      exec (.subWMem d md r) s = .refused .forbiddenInDelaySlot ∧
      exec (.subDMem d md r) s = .refused .forbiddenInDelaySlot ∧
      exec (.andBMem d md r) s = .refused .forbiddenInDelaySlot ∧
      exec (.andWMem d md r) s = .refused .forbiddenInDelaySlot ∧
      exec (.andDMem d md r) s = .refused .forbiddenInDelaySlot ∧
      exec (.orBMem d md r) s = .refused .forbiddenInDelaySlot ∧
      exec (.orWMem d md r) s = .refused .forbiddenInDelaySlot ∧
      exec (.orDMem d md r) s = .refused .forbiddenInDelaySlot ∧
      exec (.adduBMem d md r) s = .refused .forbiddenInDelaySlot ∧
      exec (.adduWMem d md r) s = .refused .forbiddenInDelaySlot ∧
      exec (.addsBMem d md r) s = .refused .forbiddenInDelaySlot ∧
      exec (.addsWMem d md r) s = .refused .forbiddenInDelaySlot ∧
      exec (.subuBMem d md r) s = .refused .forbiddenInDelaySlot ∧
      exec (.subuWMem d md r) s = .refused .forbiddenInDelaySlot ∧
      exec (.subsBMem d md r) s = .refused .forbiddenInDelaySlot ∧
      exec (.subsWMem d md r) s = .refused .forbiddenInDelaySlot ∧
      exec (.cmpBMem d md r) s = .refused .forbiddenInDelaySlot ∧
      exec (.cmpWMem d md r) s = .refused .forbiddenInDelaySlot ∧
      exec (.cmpDMem d md r) s = .refused .forbiddenInDelaySlot ∧
      exec (.cmpuBMem d md r) s = .refused .forbiddenInDelaySlot ∧
      exec (.cmpuWMem d md r) s = .refused .forbiddenInDelaySlot ∧
      exec (.cmpsBMem d md r) s = .refused .forbiddenInDelaySlot ∧
      exec (.cmpsWMem d md r) s = .refused .forbiddenInDelaySlot) ∧
    (d ≠ 15#4 → threeOperandDest d md r s ≠ 15#4 →
      exec (.boundBMem d md r) s = .refused .forbiddenInDelaySlot ∧
      exec (.boundWMem d md r) s = .refused .forbiddenInDelaySlot ∧
      exec (.boundDMem d md r) s = .refused .forbiddenInDelaySlot) ∧
    ((s.prefixAddr.isSome = true → md = false → r = d) →
      exec (.moveBMem d md r) s = .refused .forbiddenInDelaySlot ∧
      exec (.moveWMem d md r) s = .refused .forbiddenInDelaySlot ∧
      exec (.moveDMem d md r) s = .refused .forbiddenInDelaySlot ∧
      exec (.movuBMem d md r) s = .refused .forbiddenInDelaySlot ∧
      exec (.movuWMem d md r) s = .refused .forbiddenInDelaySlot ∧
      exec (.movsBMem d md r) s = .refused .forbiddenInDelaySlot ∧
      exec (.movsWMem d md r) s = .refused .forbiddenInDelaySlot) ∧
    (sregSize p ≠ none →
      exec (.moveToSpecialMem p md r) s = .refused .forbiddenInDelaySlot ∧
      exec (.moveFromSpecialMem p md r) s = .refused .forbiddenInDelaySlot) ∧
    ((md = true → s.prefixAddr.isSome = true → restartCycle s = none) →
      exec (.movemStore d md r) s = .refused .forbiddenInDelaySlot ∧
      ((md = true → d.toNat < r.toNat) → exec (.movemLoad d md r) s = .refused .forbiddenInDelaySlot)) ∧
    exec (.testBMem md r) s = .refused .forbiddenInDelaySlot ∧
    exec (.testWMem md r) s = .refused .forbiddenInDelaySlot ∧
    exec (.testDMem md r) s = .refused .forbiddenInDelaySlot ∧
    exec (.moveBStore d md r) s = .refused .forbiddenInDelaySlot ∧
    exec (.moveWStore d md r) s = .refused .forbiddenInDelaySlot ∧
    exec (.moveDStore d md r) s = .refused .forbiddenInDelaySlot ∧
    exec (.clearBMem md r) s = .refused .forbiddenInDelaySlot ∧
    exec (.clearWMem md r) s = .refused .forbiddenInDelaySlot ∧
    exec (.clearDMem md r) s = .refused .forbiddenInDelaySlot ∧
    exec (.sbfs md r) s = .refused .forbiddenInDelaySlot ∧
    exec (.jump md r) s = .refused .forbiddenInDelaySlot ∧
    exec (.jirc md r) s = .refused .forbiddenInDelaySlot ∧
    exec (.jsrc md r) s = .refused .forbiddenInDelaySlot ∧
    exec (.jbrc md r) s = .refused .forbiddenInDelaySlot ∧
    exec (.jir md r) s = .refused .forbiddenInDelaySlot ∧
    exec (.jsr md r) s = .refused .forbiddenInDelaySlot ∧
    exec (.jmpu md r) s = .refused .forbiddenInDelaySlot ∧
    exec (.rbf md r) s = .refused .forbiddenInDelaySlot) ∧
  ∀ (s : State) (d r : RegNo) (md : Bool) (p : SReg) (k : BitVec 8), s.delay.isSome = true → s.prefixAddr.isSome = true →
    (sregSize p ≠ none →
      exec (.popSpecial p) s = .refused .forbiddenInDelaySlot ∧
      exec (.pushSpecial p) s = .refused .forbiddenInDelaySlot) ∧
    exec (.popReg d) s = .refused .forbiddenInDelaySlot ∧
    exec (.pushReg d) s = .refused .forbiddenInDelaySlot ∧
    exec (.bdapByte d k) s = .refused .forbiddenInDelaySlot ∧
    exec (.biapB r d) s = .refused .forbiddenInDelaySlot ∧
    exec (.biapW r d) s = .refused .forbiddenInDelaySlot ∧
    exec (.biapD r d) s = .refused .forbiddenInDelaySlot ∧
    exec (.bdapB d md r) s = .refused .forbiddenInDelaySlot ∧
    exec (.bdapW d md r) s = .refused .forbiddenInDelaySlot ∧
    exec (.bdapD d md r) s = .refused .forbiddenInDelaySlot ∧
    exec (.dip md r) s = .refused .forbiddenInDelaySlot

/-- Operands that the sources leave undefined stop (R49, R156, R254, R491; log 18). -/
def Obligations.UndefinedOperandsStop : Prop :=
  (∀ (s : State) (p : SReg) (d r : RegNo) (md : Bool), p = .p2 ∨ p = .p3 ∨ p = .p6 →
    (s.prefixAddr = none → exec (.moveToSpecial p r) s = .refused (.undefinedSpecialRegister p) ∧
      exec (.moveFromSpecial p d) s = .refused (.undefinedSpecialRegister p)) ∧
    exec (.moveToSpecialMem p md r) s = .refused (.undefinedSpecialRegister p) ∧
    exec (.moveFromSpecialMem p md r) s = .refused (.undefinedSpecialRegister p) ∧
    exec (.popSpecial p) s = .refused (.undefinedSpecialRegister p) ∧
    exec (.pushSpecial p) s = .refused (.undefinedSpecialRegister p)) ∧
  (∀ (s : State) (d r : RegNo), s.prefixAddr.isSome = true → r ≠ d →
    exec (.moveBMem d false r) s = .refused .operand1Differs ∧
    exec (.moveWMem d false r) s = .refused .operand1Differs ∧
    exec (.moveDMem d false r) s = .refused .operand1Differs ∧
    exec (.movuBMem d false r) s = .refused .operand1Differs ∧
    exec (.movuWMem d false r) s = .refused .operand1Differs ∧
    exec (.movsBMem d false r) s = .refused .operand1Differs ∧
    exec (.movsWMem d false r) s = .refused .operand1Differs) ∧
  (∀ (s : State) (d r : RegNo), r.toNat ≤ d.toNat → exec (.movemLoad d true r) s = .refused .movemAddressLoaded) ∧
  ∀ (s : State) (d r : RegNo), s.prefixAddr.isSome = true → (restartCycle s).isSome = true →
    (d.toNat < r.toNat → exec (.movemLoad d true r) s = .refused .movemAssignRestart) ∧
    exec (.movemStore d true r) s = .refused .movemAssignRestart

/-- A result of size m replaces the low bits of its register and changes no other register (R22, R24, R11). -/
def Obligations.PartialWrites : Prop :=
  ∀ (m : Size) (d : RegNo) (x : Word × Flags) (s : State), d ≠ 15#4 →
    (∀ i, i < 32 → (readReg d (withResult m d x s)).getLsbD i =
      if i < widthOf m then x.1.getLsbD i else (readReg d s).getLsbD i) ∧
    (∀ q, q ≠ d → readReg q (withResult m d x s) = readReg q s) ∧
    (if s.mode = .user then (withResult m d x s).ssp = s.ssp else (withResult m d x s).usp = s.usp) ∧
    withResult m d x s = { s with
      regs := (withResult m d x s).regs, ssp := (withResult m d x s).ssp, usp := (withResult m d x s).usp, flags := x.2 }

/-- The sixteen condition predicates (R38). -/
def Obligations.ConditionCodes : Prop :=
  ∀ f : Flags,
    (condHolds .cc f = true ↔ f.c = false) ∧ (condHolds .cs f = true ↔ f.c = true) ∧
    (condHolds .ne f = true ↔ f.z = false) ∧ (condHolds .eq f = true ↔ f.z = true) ∧
    (condHolds .vc f = true ↔ f.v = false) ∧ (condHolds .vs f = true ↔ f.v = true) ∧
    (condHolds .pl f = true ↔ f.n = false) ∧ (condHolds .mi f = true ↔ f.n = true) ∧
    (condHolds .ls f = true ↔ f.c = true ∨ f.z = true) ∧ (condHolds .hi f = true ↔ f.c = false ∧ f.z = false) ∧
    (condHolds .ge f = true ↔ f.n = f.v) ∧ (condHolds .lt f = true ↔ f.n ≠ f.v) ∧
    (condHolds .gt f = true ↔ f.n = f.v ∧ f.z = false) ∧ (condHolds .le f = true ↔ f.z = true ∨ f.n ≠ f.v) ∧
    condHolds .a f = true ∧ (condHolds .wf f = true ↔ f.p = true)

/-- ADDQ, SUBQ, ADD, ADDU, ADDS, SUB, SUBU, SUBS, NEG with register operands complete with the exact sum or difference
(R285, R287, R288, R289, R297, R298, R299, R300, R301, R39, R40, R281). -/
def Obligations.AddSubtractRegisters : Prop :=
  ∀ (s : State) (d r : RegNo) (j : BitVec 6), s.prefixAddr = none → SlotOk s → d ≠ 15#4 →
    exec (.addq d j) s =
      .next (registerEnd .dword d (sumOf .dword s.flags (readReg d s) (j.setWidth 32)) s) ∧
    exec (.subq d j) s =
      .next (registerEnd .dword d (differenceOf .dword s.flags (readReg d s) (j.setWidth 32)) s) ∧
    exec (.addBReg d r) s =
      .next (registerEnd .byte d (sumOf .byte s.flags (readReg d s) (readReg r s)) s) ∧
    exec (.addWReg d r) s =
      .next (registerEnd .word d (sumOf .word s.flags (readReg d s) (readReg r s)) s) ∧
    exec (.addDReg d r) s =
      .next (registerEnd .dword d (sumOf .dword s.flags (readReg d s) (readReg r s)) s) ∧
    exec (.adduBReg d r) s =
      .next (registerEnd .dword d (sumOf .dword s.flags (readReg d s) (zeroExtended .byte (readReg r s))) s) ∧
    exec (.adduWReg d r) s =
      .next (registerEnd .dword d (sumOf .dword s.flags (readReg d s) (zeroExtended .word (readReg r s))) s) ∧
    exec (.addsBReg d r) s =
      .next (registerEnd .dword d (sumOf .dword s.flags (readReg d s) (signExtended .byte (readReg r s))) s) ∧
    exec (.addsWReg d r) s =
      .next (registerEnd .dword d (sumOf .dword s.flags (readReg d s) (signExtended .word (readReg r s))) s) ∧
    exec (.subBReg d r) s =
      .next (registerEnd .byte d (differenceOf .byte s.flags (readReg d s) (readReg r s)) s) ∧
    exec (.subWReg d r) s =
      .next (registerEnd .word d (differenceOf .word s.flags (readReg d s) (readReg r s)) s) ∧
    exec (.subDReg d r) s =
      .next (registerEnd .dword d (differenceOf .dword s.flags (readReg d s) (readReg r s)) s) ∧
    exec (.subuBReg d r) s =
      .next (registerEnd .dword d (differenceOf .dword s.flags (readReg d s) (zeroExtended .byte (readReg r s))) s) ∧
    exec (.subuWReg d r) s =
      .next (registerEnd .dword d (differenceOf .dword s.flags (readReg d s) (zeroExtended .word (readReg r s))) s) ∧
    exec (.subsBReg d r) s =
      .next (registerEnd .dword d (differenceOf .dword s.flags (readReg d s) (signExtended .byte (readReg r s))) s) ∧
    exec (.subsWReg d r) s =
      .next (registerEnd .dword d (differenceOf .dword s.flags (readReg d s) (signExtended .word (readReg r s))) s) ∧
    exec (.negBReg d r) s =
      .next (registerEnd .byte d (differenceOf .byte s.flags 0#32 (readReg r s)) s) ∧
    exec (.negWReg d r) s =
      .next (registerEnd .word d (differenceOf .word s.flags 0#32 (readReg r s)) s) ∧
    exec (.negDReg d r) s =
      .next (registerEnd .dword d (differenceOf .dword s.flags 0#32 (readReg r s)) s)

/-- CMPQ, CMP, BTST and BTSTQ with register operands complete and write flags only, PC operands included (R291, R292,
R355, R356, R39, R40; log 35). -/
def Obligations.CompareAndBitTestRegisters : Prop :=
  ∀ (s : State) (d r : RegNo) (i : BitVec 6) (c : BitVec 5), s.prefixAddr = none → SlotOk s →
    exec (.cmpq d i) s =
      .next (flagsEnd (differenceOf .dword s.flags (readReg d s) (i.signExtend 32)).2 s) ∧
    exec (.cmpBReg d r) s =
      .next (flagsEnd (differenceOf .byte s.flags (readReg d s) (readReg r s)).2 s) ∧
    exec (.cmpWReg d r) s =
      .next (flagsEnd (differenceOf .word s.flags (readReg d s) (readReg r s)).2 s) ∧
    exec (.cmpDReg d r) s =
      .next (flagsEnd (differenceOf .dword s.flags (readReg d s) (readReg r s)).2 s) ∧
    exec (.btst d r) s =
      .next (flagsEnd (bitTestOf s.flags (readReg d s) ((readReg r s).toNat % 32)) s) ∧
    exec (.btstq d c) s =
      .next (flagsEnd (bitTestOf s.flags (readReg d s) c.toNat) s)

/-- BOUND, ABS, ADDI, DSTEP and MSTEP with register operands complete with the result of their rule (R284, R286, R290,
R295, R296, R281; log 14). -/
def Obligations.BoundAbsAddiSteps : Prop :=
  ∀ (s : State) (d r : RegNo), s.prefixAddr = none → SlotOk s → d ≠ 15#4 →
    exec (.boundBReg d r) s =
      .next (registerEnd .dword d (boundOf s.flags (readReg d s) (zeroExtended .byte (readReg r s))) s) ∧
    exec (.boundWReg d r) s =
      .next (registerEnd .dword d (boundOf s.flags (readReg d s) (zeroExtended .word (readReg r s))) s) ∧
    exec (.boundDReg d r) s =
      .next (registerEnd .dword d (boundOf s.flags (readReg d s) (zeroExtended .dword (readReg r s))) s) ∧
    exec (.abs d r) s =
      .next (registerEnd .dword d (absOf s.flags (readReg r s)) s) ∧
    exec (.addiB r d) s =
      .next (registerEnd .dword d (patternAt .dword ((readReg d s).toNat + 1 * (readReg r s).toNat + carryOf s.flags : Nat), s.flags) s) ∧
    exec (.addiW r d) s =
      .next (registerEnd .dword d (patternAt .dword ((readReg d s).toNat + 2 * (readReg r s).toNat + carryOf s.flags : Nat), s.flags) s) ∧
    exec (.addiD r d) s =
      .next (registerEnd .dword d (patternAt .dword ((readReg d s).toNat + 4 * (readReg r s).toNat + carryOf s.flags : Nat), s.flags) s) ∧
    exec (.dstep d r) s =
      .next (registerEnd .dword d (divideStepOf s.flags (readReg d s) (readReg r s)) s) ∧
    exec (.mstep d r) s =
      .next (registerEnd .dword d (multiplyStepOf s.flags (readReg d s) (readReg r s)) s)

/-- ANDQ, ORQ, AND, OR, XOR, NOT and LZ with register operands complete with the result of their rule (R343, R344,
R345, R346, R347, R348, R357, R39). -/
def Obligations.LogicRegisters : Prop :=
  ∀ (s : State) (d r : RegNo) (i : BitVec 6), s.prefixAddr = none → SlotOk s → d ≠ 15#4 →
    exec (.andq d i) s =
      .next (registerEnd .dword d (andOf .dword s.flags (readReg d s) (i.signExtend 32)) s) ∧
    exec (.orq d i) s =
      .next (registerEnd .dword d (orOf .dword s.flags (readReg d s) (i.signExtend 32)) s) ∧
    exec (.andBReg d r) s =
      .next (registerEnd .byte d (andOf .byte s.flags (readReg d s) (readReg r s)) s) ∧
    exec (.andWReg d r) s =
      .next (registerEnd .word d (andOf .word s.flags (readReg d s) (readReg r s)) s) ∧
    exec (.andDReg d r) s =
      .next (registerEnd .dword d (andOf .dword s.flags (readReg d s) (readReg r s)) s) ∧
    exec (.orBReg d r) s =
      .next (registerEnd .byte d (orOf .byte s.flags (readReg d s) (readReg r s)) s) ∧
    exec (.orWReg d r) s =
      .next (registerEnd .word d (orOf .word s.flags (readReg d s) (readReg r s)) s) ∧
    exec (.orDReg d r) s =
      .next (registerEnd .dword d (orOf .dword s.flags (readReg d s) (readReg r s)) s) ∧
    exec (.xor d r) s =
      .next (registerEnd .dword d (plainResult .dword s.flags (readReg d s ^^^ readReg r s)) s) ∧
    exec (.notReg d) s =
      .next (registerEnd .dword d (plainResult .dword s.flags (~~~ readReg d s)) s) ∧
    exec (.lz d r) s =
      .next (registerEnd .dword d (plainResult .dword s.flags (BitVec.ofNat 32 (leadingZerosOf (readReg r s)))) s)

/-- LSL, LSR, ASR and their quick forms complete with the product or quotient by a power of two (R349, R350, R351,
R352, R353, R354, R342; log 35). -/
def Obligations.ShiftRegisters : Prop :=
  ∀ (s : State) (d r : RegNo) (c : BitVec 5), s.prefixAddr = none → SlotOk s → d ≠ 15#4 →
    exec (.lslBReg d r) s =
      .next (registerEnd .byte d (leftShiftOf .byte s.flags (readReg d s) ((readReg r s).toNat % 64)) s) ∧
    exec (.lslWReg d r) s =
      .next (registerEnd .word d (leftShiftOf .word s.flags (readReg d s) ((readReg r s).toNat % 64)) s) ∧
    exec (.lslDReg d r) s =
      .next (registerEnd .dword d (leftShiftOf .dword s.flags (readReg d s) ((readReg r s).toNat % 64)) s) ∧
    exec (.lslq d c) s =
      .next (registerEnd .dword d (leftShiftOf .dword s.flags (readReg d s) c.toNat) s) ∧
    exec (.lsrBReg d r) s =
      .next (registerEnd .byte d (rightShiftOf .byte s.flags (readReg d s) ((readReg r s).toNat % 64)) s) ∧
    exec (.lsrWReg d r) s =
      .next (registerEnd .word d (rightShiftOf .word s.flags (readReg d s) ((readReg r s).toNat % 64)) s) ∧
    exec (.lsrDReg d r) s =
      .next (registerEnd .dword d (rightShiftOf .dword s.flags (readReg d s) ((readReg r s).toNat % 64)) s) ∧
    exec (.lsrq d c) s =
      .next (registerEnd .dword d (rightShiftOf .dword s.flags (readReg d s) c.toNat) s) ∧
    exec (.asrBReg d r) s =
      .next (registerEnd .byte d (signedShiftOf .byte s.flags (readReg d s) ((readReg r s).toNat % 64)) s) ∧
    exec (.asrWReg d r) s =
      .next (registerEnd .word d (signedShiftOf .word s.flags (readReg d s) ((readReg r s).toNat % 64)) s) ∧
    exec (.asrDReg d r) s =
      .next (registerEnd .dword d (signedShiftOf .dword s.flags (readReg d s) ((readReg r s).toNat % 64)) s) ∧
    exec (.asrq d c) s =
      .next (registerEnd .dword d (signedShiftOf .dword s.flags (readReg d s) c.toNat) s)

/-- MOVEQ, MOVE, MOVU, MOVS and TEST with register operands complete, TEST of PC included (R244, R250, R251, R252,
R302, R283, R22; log 45). -/
def Obligations.MoveRegisters : Prop :=
  (∀ (s : State) (d r : RegNo) (i : BitVec 6), s.prefixAddr = none → SlotOk s → d ≠ 15#4 →
    exec (.moveq d i) s =
      .next (registerEnd .dword d (movedOf .dword s.flags (i.signExtend 32)) s) ∧
    exec (.moveBReg d r) s =
      .next (registerEnd .byte d (movedOf .byte s.flags (readReg r s)) s) ∧
    exec (.moveWReg d r) s =
      .next (registerEnd .word d (movedOf .word s.flags (readReg r s)) s) ∧
    exec (.moveDReg d r) s =
      .next (registerEnd .dword d (movedOf .dword s.flags (readReg r s)) s) ∧
    exec (.movuBReg d r) s =
      .next (registerEnd .dword d (movedOf .dword s.flags (zeroExtended .byte (readReg r s))) s) ∧
    exec (.movuWReg d r) s =
      .next (registerEnd .dword d (movedOf .dword s.flags (zeroExtended .word (readReg r s))) s) ∧
    exec (.movsBReg d r) s =
      .next (registerEnd .dword d (movedOf .dword s.flags (signExtended .byte (readReg r s))) s) ∧
    exec (.movsWReg d r) s =
      .next (registerEnd .dword d (movedOf .dword s.flags (signExtended .word (readReg r s))) s)) ∧
  ∀ (s : State) (d : RegNo), s.prefixAddr = none → SlotOk s →
    exec (.testBReg d) s =
      .next (flagsEnd (movedOf .byte s.flags (readReg d s)).2 s) ∧
    exec (.testWReg d) s =
      .next (flagsEnd (movedOf .word s.flags (readReg d s)).2 s) ∧
    exec (.testDReg d) s =
      .next (flagsEnd (movedOf .dword s.flags (readReg d s)).2 s)

/-- SWAP permutes and inverts bits, Scc writes its condition, for all options and conditions (R260, R261, R38; log
40). -/
def Obligations.SwapAndScc : Prop :=
  (∀ (s : State) (d : RegNo) (o : BitVec 4), s.prefixAddr = none → SlotOk s → d ≠ 15#4 →
    ∃ v : Word,
      (∀ i, i < 32 → v.getLsbD i = ((readReg d s).getLsbD
        (i ^^^ ((if o.getLsbD 2 then 16 else 0) ^^^ (if o.getLsbD 1 then 8 else 0) ^^^ (if o.getLsbD 0 then 7 else 0)))
          ^^ o.getLsbD 3)) ∧
      exec (.swap o d) s = .next (registerEnd .dword d (plainResult .dword s.flags v) s)) ∧
  ∀ (s : State) (d : RegNo) (c : Cond), s.prefixAddr = none → SlotOk s → d ≠ 15#4 →
    exec (.scc c d) s = .next (finished (pcPlus2 s) true false
      (withResult .dword d (if condHolds c s.flags then 1#32 else 0#32, s.flags) s))

/-- MULS and MULU: the exact 64-bit product in MOF and Rd, and the flags (R313, R314). -/
def Obligations.Multiply : Prop :=
  ∀ (s : State) (d r : RegNo), s.prefixAddr = none → SlotOk s → d ≠ 15#4 →
    (let p := signedAt .byte (readReg r s) * signedAt .byte (readReg d s)
     exec (.mulsB d r) s = .next (finished (pcPlus2 s) false false
        (withProduct d p (productFlags (decide (p < 0)) (decide (p = 0)) (decide (p < -2 ^ 31 ∨ 2 ^ 31 ≤ p)) s.flags) s))) ∧
    (let p := signedAt .word (readReg r s) * signedAt .word (readReg d s)
     exec (.mulsW d r) s = .next (finished (pcPlus2 s) false false
        (withProduct d p (productFlags (decide (p < 0)) (decide (p = 0)) (decide (p < -2 ^ 31 ∨ 2 ^ 31 ≤ p)) s.flags) s))) ∧
    (let p := signedAt .dword (readReg r s) * signedAt .dword (readReg d s)
     exec (.mulsD d r) s = .next (finished (pcPlus2 s) false false
        (withProduct d p (productFlags (decide (p < 0)) (decide (p = 0)) (decide (p < -2 ^ 31 ∨ 2 ^ 31 ≤ p)) s.flags) s))) ∧
    (let p := unsignedAt .byte (readReg r s) * unsignedAt .byte (readReg d s)
     exec (.muluB d r) s = .next (finished (pcPlus2 s) false false
        (withProduct d p (productFlags (decide (2 ^ 63 ≤ p)) (decide (p = 0)) (decide (2 ^ 32 ≤ p)) s.flags) s))) ∧
    (let p := unsignedAt .word (readReg r s) * unsignedAt .word (readReg d s)
     exec (.muluW d r) s = .next (finished (pcPlus2 s) false false
        (withProduct d p (productFlags (decide (2 ^ 63 ≤ p)) (decide (p = 0)) (decide (2 ^ 32 ≤ p)) s.flags) s))) ∧
    (let p := unsignedAt .dword (readReg r s) * unsignedAt .dword (readReg d s)
     exec (.muluD d r) s = .next (finished (pcPlus2 s) false false
        (withProduct d p (productFlags (decide (2 ^ 63 ≤ p)) (decide (p = 0)) (decide (2 ^ 32 ≤ p)) s.flags) s)))

/-- Quick and register forms with PC as destination jump to the result, with the flags set (R30, R29, R281, R283,
R284, R341, R243; log 14, 39, 35). -/
def Obligations.PcDestinationRegisters : Prop :=
  ∀ (s : State) (r : RegNo) (j : BitVec 6) (c : BitVec 5), s.prefixAddr = none → s.delay = none →
    exec (.addq 15#4 j) s =
      pcResult .dword (sumOf .dword s.flags (pcPlus2 s) (j.setWidth 32)) s ∧
    exec (.subq 15#4 j) s =
      pcResult .dword (differenceOf .dword s.flags (pcPlus2 s) (j.setWidth 32)) s ∧
    exec (.moveq 15#4 j) s =
      pcResult .dword (movedOf .dword s.flags (j.signExtend 32)) s ∧
    exec (.andq 15#4 j) s =
      pcResult .dword (andOf .dword s.flags (pcPlus2 s) (j.signExtend 32)) s ∧
    exec (.orq 15#4 j) s =
      pcResult .dword (orOf .dword s.flags (pcPlus2 s) (j.signExtend 32)) s ∧
    exec (.asrq 15#4 c) s =
      pcResult .dword (signedShiftOf .dword s.flags (pcPlus2 s) c.toNat) s ∧
    exec (.addBReg 15#4 r) s =
      pcResult .byte (sumOf .byte s.flags (pcPlus2 s) (readReg r s)) s ∧
    exec (.addWReg 15#4 r) s =
      pcResult .word (sumOf .word s.flags (pcPlus2 s) (readReg r s)) s ∧
    exec (.addDReg 15#4 r) s =
      pcResult .dword (sumOf .dword s.flags (pcPlus2 s) (readReg r s)) s ∧
    exec (.adduBReg 15#4 r) s =
      pcResult .dword (sumOf .dword s.flags (pcPlus2 s) (zeroExtended .byte (readReg r s))) s ∧
    exec (.adduWReg 15#4 r) s =
      pcResult .dword (sumOf .dword s.flags (pcPlus2 s) (zeroExtended .word (readReg r s))) s ∧
    exec (.addsBReg 15#4 r) s =
      pcResult .dword (sumOf .dword s.flags (pcPlus2 s) (signExtended .byte (readReg r s))) s ∧
    exec (.addsWReg 15#4 r) s =
      pcResult .dword (sumOf .dword s.flags (pcPlus2 s) (signExtended .word (readReg r s))) s ∧
    exec (.subBReg 15#4 r) s =
      pcResult .byte (differenceOf .byte s.flags (pcPlus2 s) (readReg r s)) s ∧
    exec (.subWReg 15#4 r) s =
      pcResult .word (differenceOf .word s.flags (pcPlus2 s) (readReg r s)) s ∧
    exec (.subDReg 15#4 r) s =
      pcResult .dword (differenceOf .dword s.flags (pcPlus2 s) (readReg r s)) s ∧
    exec (.subuBReg 15#4 r) s =
      pcResult .dword (differenceOf .dword s.flags (pcPlus2 s) (zeroExtended .byte (readReg r s))) s ∧
    exec (.subuWReg 15#4 r) s =
      pcResult .dword (differenceOf .dword s.flags (pcPlus2 s) (zeroExtended .word (readReg r s))) s ∧
    exec (.subsBReg 15#4 r) s =
      pcResult .dword (differenceOf .dword s.flags (pcPlus2 s) (signExtended .byte (readReg r s))) s ∧
    exec (.subsWReg 15#4 r) s =
      pcResult .dword (differenceOf .dword s.flags (pcPlus2 s) (signExtended .word (readReg r s))) s ∧
    exec (.andBReg 15#4 r) s =
      pcResult .byte (andOf .byte s.flags (pcPlus2 s) (readReg r s)) s ∧
    exec (.andWReg 15#4 r) s =
      pcResult .word (andOf .word s.flags (pcPlus2 s) (readReg r s)) s ∧
    exec (.andDReg 15#4 r) s =
      pcResult .dword (andOf .dword s.flags (pcPlus2 s) (readReg r s)) s ∧
    exec (.orBReg 15#4 r) s =
      pcResult .byte (orOf .byte s.flags (pcPlus2 s) (readReg r s)) s ∧
    exec (.orWReg 15#4 r) s =
      pcResult .word (orOf .word s.flags (pcPlus2 s) (readReg r s)) s ∧
    exec (.orDReg 15#4 r) s =
      pcResult .dword (orOf .dword s.flags (pcPlus2 s) (readReg r s)) s ∧
    exec (.asrBReg 15#4 r) s =
      pcResult .byte (signedShiftOf .byte s.flags (pcPlus2 s) ((readReg r s).toNat % 64)) s ∧
    exec (.asrWReg 15#4 r) s =
      pcResult .word (signedShiftOf .word s.flags (pcPlus2 s) ((readReg r s).toNat % 64)) s ∧
    exec (.asrDReg 15#4 r) s =
      pcResult .dword (signedShiftOf .dword s.flags (pcPlus2 s) ((readReg r s).toNat % 64)) s ∧
    exec (.moveBReg 15#4 r) s =
      pcResult .byte (movedOf .byte s.flags (readReg r s)) s ∧
    exec (.moveWReg 15#4 r) s =
      pcResult .word (movedOf .word s.flags (readReg r s)) s ∧
    exec (.moveDReg 15#4 r) s =
      pcResult .dword (movedOf .dword s.flags (readReg r s)) s ∧
    exec (.movuBReg 15#4 r) s =
      pcResult .dword (movedOf .dword s.flags (zeroExtended .byte (readReg r s))) s ∧
    exec (.movuWReg 15#4 r) s =
      pcResult .dword (movedOf .dword s.flags (zeroExtended .word (readReg r s))) s ∧
    exec (.movsBReg 15#4 r) s =
      pcResult .dword (movedOf .dword s.flags (signExtended .byte (readReg r s))) s ∧
    exec (.movsWReg 15#4 r) s =
      pcResult .dword (movedOf .dword s.flags (signExtended .word (readReg r s))) s ∧
    exec (.abs 15#4 r) s =
      pcResult .dword (absOf s.flags (readReg r s)) s ∧
    exec (.lz 15#4 r) s =
      pcResult .dword (plainResult .dword s.flags (BitVec.ofNat 32 (leadingZerosOf (readReg r s)))) s ∧
    exec (.xor 15#4 r) s =
      pcResult .dword (plainResult .dword s.flags ((pcPlus2 s) ^^^ readReg r s)) s

/-- Where the memory operand is, what happens to its register, and where the next word is, in every mode (R203, R204,
R206, R207, R208, R215, R28). -/
def Obligations.OperandForms : Prop :=
  ∀ (s : State) (r : RegNo) (n : Nat), s.resume = none →
    (s.prefixAddr = none → operandAddress r s = readReg r s ∧ operandAddress 15#4 s = s.pc + 2#32 ∧
      (∀ a t, updateAddress false r n a t = t) ∧ endAddress false r n s = s.pc + 2#32 ∧
      (r ≠ 15#4 → endAddress true r n s = s.pc + 2#32) ∧
      endAddress true 15#4 n s = s.pc + 2#32 + BitVec.ofNat 32 (if n = 1 then 2 else n)) ∧
    (∀ a t, t.prefixAddr = none → r ≠ 15#4 →
      readReg r (updateAddress true r n a t) = a + BitVec.ofNat 32 n ∧
      ∀ q, q ≠ r → readReg q (updateAddress true r n a t) = readReg q t) ∧
    (∀ a t, updateAddress true 15#4 n a t = t) ∧
    ∀ p, s.prefixAddr = some p → operandAddress r s = p ∧ (∀ md, endAddress md r n s = s.pc + 2#32) ∧
      ∀ a t, t.prefixAddr = some p → r ≠ 15#4 →
        updateAddress false r n a t = t ∧ readReg r (updateAddress true r n a t) = a ∧
        ∀ q, q ≠ r → readReg q (updateAddress true r n a t) = readReg q t

/-- ADD, ADDU, ADDS, SUB, SUBU, SUBS with a memory operand complete in every addressing mode, 3-operand form included
(R282, R285, R288, R289, R298, R300, R301, R205, R216). -/
def Obligations.AddSubtractMemory : Prop :=
  ∀ (s : State) (d r : RegNo) (md : Bool), threeOperandDest d md r s ≠ 15#4 → (d = 15#4 → isInline md r s = false) →
    (OperandReady md r 1 s →
      ReadsAndEnds (.addBMem d md r) md r s
        (operandEnd .byte 1 (threeOperandDest d md r s) md r (sumOf .byte s.flags (readReg d s) (memoryValue r 1 s)) s) ∧
      ReadsAndEnds (.adduBMem d md r) md r s
        (operandEnd .dword 1 (threeOperandDest d md r s) md r (sumOf .dword s.flags (readReg d s) (zeroExtended .byte (memoryValue r 1 s))) s) ∧
      ReadsAndEnds (.addsBMem d md r) md r s
        (operandEnd .dword 1 (threeOperandDest d md r s) md r (sumOf .dword s.flags (readReg d s) (signExtended .byte (memoryValue r 1 s))) s) ∧
      ReadsAndEnds (.subBMem d md r) md r s
        (operandEnd .byte 1 (threeOperandDest d md r s) md r (differenceOf .byte s.flags (readReg d s) (memoryValue r 1 s)) s) ∧
      ReadsAndEnds (.subuBMem d md r) md r s
        (operandEnd .dword 1 (threeOperandDest d md r s) md r (differenceOf .dword s.flags (readReg d s) (zeroExtended .byte (memoryValue r 1 s))) s) ∧
      ReadsAndEnds (.subsBMem d md r) md r s
        (operandEnd .dword 1 (threeOperandDest d md r s) md r (differenceOf .dword s.flags (readReg d s) (signExtended .byte (memoryValue r 1 s))) s)) ∧
    (OperandReady md r 2 s →
      ReadsAndEnds (.addWMem d md r) md r s
        (operandEnd .word 2 (threeOperandDest d md r s) md r (sumOf .word s.flags (readReg d s) (memoryValue r 2 s)) s) ∧
      ReadsAndEnds (.adduWMem d md r) md r s
        (operandEnd .dword 2 (threeOperandDest d md r s) md r (sumOf .dword s.flags (readReg d s) (zeroExtended .word (memoryValue r 2 s))) s) ∧
      ReadsAndEnds (.addsWMem d md r) md r s
        (operandEnd .dword 2 (threeOperandDest d md r s) md r (sumOf .dword s.flags (readReg d s) (signExtended .word (memoryValue r 2 s))) s) ∧
      ReadsAndEnds (.subWMem d md r) md r s
        (operandEnd .word 2 (threeOperandDest d md r s) md r (differenceOf .word s.flags (readReg d s) (memoryValue r 2 s)) s) ∧
      ReadsAndEnds (.subuWMem d md r) md r s
        (operandEnd .dword 2 (threeOperandDest d md r s) md r (differenceOf .dword s.flags (readReg d s) (zeroExtended .word (memoryValue r 2 s))) s) ∧
      ReadsAndEnds (.subsWMem d md r) md r s
        (operandEnd .dword 2 (threeOperandDest d md r s) md r (differenceOf .dword s.flags (readReg d s) (signExtended .word (memoryValue r 2 s))) s)) ∧
    (OperandReady md r 4 s →
      ReadsAndEnds (.addDMem d md r) md r s
        (operandEnd .dword 4 (threeOperandDest d md r s) md r (sumOf .dword s.flags (readReg d s) (memoryValue r 4 s)) s) ∧
      ReadsAndEnds (.subDMem d md r) md r s
        (operandEnd .dword 4 (threeOperandDest d md r s) md r (differenceOf .dword s.flags (readReg d s) (memoryValue r 4 s)) s))

/-- AND, OR and BOUND with a memory operand complete in every addressing mode, 3-operand form included (R282, R343,
R346, R290, R205, R216; log 14). -/
def Obligations.LogicAndBoundMemory : Prop :=
  (∀ (s : State) (d r : RegNo) (md : Bool), threeOperandDest d md r s ≠ 15#4 → (d = 15#4 → isInline md r s = false) →
    (OperandReady md r 1 s →
      ReadsAndEnds (.andBMem d md r) md r s
        (operandEnd .byte 1 (threeOperandDest d md r s) md r (andOf .byte s.flags (readReg d s) (memoryValue r 1 s)) s) ∧
      ReadsAndEnds (.orBMem d md r) md r s
        (operandEnd .byte 1 (threeOperandDest d md r s) md r (orOf .byte s.flags (readReg d s) (memoryValue r 1 s)) s)) ∧
    (OperandReady md r 2 s →
      ReadsAndEnds (.andWMem d md r) md r s
        (operandEnd .word 2 (threeOperandDest d md r s) md r (andOf .word s.flags (readReg d s) (memoryValue r 2 s)) s) ∧
      ReadsAndEnds (.orWMem d md r) md r s
        (operandEnd .word 2 (threeOperandDest d md r s) md r (orOf .word s.flags (readReg d s) (memoryValue r 2 s)) s)) ∧
    (OperandReady md r 4 s →
      ReadsAndEnds (.andDMem d md r) md r s
        (operandEnd .dword 4 (threeOperandDest d md r s) md r (andOf .dword s.flags (readReg d s) (memoryValue r 4 s)) s) ∧
      ReadsAndEnds (.orDMem d md r) md r s
        (operandEnd .dword 4 (threeOperandDest d md r s) md r (orOf .dword s.flags (readReg d s) (memoryValue r 4 s)) s))) ∧
  ∀ (s : State) (d r : RegNo) (md : Bool), threeOperandDest d md r s ≠ 15#4 → d ≠ 15#4 →
    (OperandReady md r 1 s →
      ReadsAndEnds (.boundBMem d md r) md r s
        (operandEnd .dword 1 (threeOperandDest d md r s) md r (boundOf s.flags (readReg d s) (memoryValue r 1 s)) s)) ∧
    (OperandReady md r 2 s →
      ReadsAndEnds (.boundWMem d md r) md r s
        (operandEnd .dword 2 (threeOperandDest d md r s) md r (boundOf s.flags (readReg d s) (memoryValue r 2 s)) s)) ∧
    (OperandReady md r 4 s →
      ReadsAndEnds (.boundDMem d md r) md r s
        (operandEnd .dword 4 (threeOperandDest d md r s) md r (boundOf s.flags (readReg d s) (memoryValue r 4 s)) s))

/-- CMP, CMPU, CMPS and TEST with a memory operand complete in every addressing mode and write flags only (R291, R293,
R294, R302, R205). -/
def Obligations.CompareAndTestMemory : Prop :=
  (∀ (s : State) (d r : RegNo) (md : Bool), (d = 15#4 → isInline md r s = false) →
    (OperandReady md r 1 s →
      ReadsAndEnds (.cmpBMem d md r) md r s
        (operandFlagsEnd 1 md r (differenceOf .byte s.flags (readReg d s) (memoryValue r 1 s)).2 s) ∧
      ReadsAndEnds (.cmpuBMem d md r) md r s
        (operandFlagsEnd 1 md r (differenceOf .dword s.flags (readReg d s) (zeroExtended .byte (memoryValue r 1 s))).2 s) ∧
      ReadsAndEnds (.cmpsBMem d md r) md r s
        (operandFlagsEnd 1 md r (differenceOf .dword s.flags (readReg d s) (signExtended .byte (memoryValue r 1 s))).2 s)) ∧
    (OperandReady md r 2 s →
      ReadsAndEnds (.cmpWMem d md r) md r s
        (operandFlagsEnd 2 md r (differenceOf .word s.flags (readReg d s) (memoryValue r 2 s)).2 s) ∧
      ReadsAndEnds (.cmpuWMem d md r) md r s
        (operandFlagsEnd 2 md r (differenceOf .dword s.flags (readReg d s) (zeroExtended .word (memoryValue r 2 s))).2 s) ∧
      ReadsAndEnds (.cmpsWMem d md r) md r s
        (operandFlagsEnd 2 md r (differenceOf .dword s.flags (readReg d s) (signExtended .word (memoryValue r 2 s))).2 s)) ∧
    (OperandReady md r 4 s →
      ReadsAndEnds (.cmpDMem d md r) md r s
        (operandFlagsEnd 4 md r (differenceOf .dword s.flags (readReg d s) (memoryValue r 4 s)).2 s))) ∧
  ∀ (s : State) (r : RegNo) (md : Bool),
    (OperandReady md r 1 s →
      ReadsAndEnds (.testBMem md r) md r s
        (operandFlagsEnd 1 md r (movedOf .byte s.flags (memoryValue r 1 s)).2 s)) ∧
    (OperandReady md r 2 s →
      ReadsAndEnds (.testWMem md r) md r s
        (operandFlagsEnd 2 md r (movedOf .word s.flags (memoryValue r 2 s)).2 s)) ∧
    (OperandReady md r 4 s →
      ReadsAndEnds (.testDMem md r) md r s
        (operandFlagsEnd 4 md r (movedOf .dword s.flags (memoryValue r 4 s)).2 s))

/-- MOVE, MOVU, MOVS from memory and POP Rd complete in every addressing mode (R244, R251, R252, R256, R205, R206). -/
def Obligations.MoveMemory : Prop :=
  (∀ (s : State) (d r : RegNo) (md : Bool), d ≠ 15#4 → (s.prefixAddr.isSome = true → md = false → r = d) →
    (OperandReady md r 1 s →
      ReadsAndEnds (.moveBMem d md r) md r s
        (operandEnd .byte 1 d md r (movedOf .byte s.flags (memoryValue r 1 s)) s) ∧
      ReadsAndEnds (.movuBMem d md r) md r s
        (operandEnd .dword 1 d md r (movedOf .dword s.flags (zeroExtended .byte (memoryValue r 1 s))) s) ∧
      ReadsAndEnds (.movsBMem d md r) md r s
        (operandEnd .dword 1 d md r (movedOf .dword s.flags (signExtended .byte (memoryValue r 1 s))) s)) ∧
    (OperandReady md r 2 s →
      ReadsAndEnds (.moveWMem d md r) md r s
        (operandEnd .word 2 d md r (movedOf .word s.flags (memoryValue r 2 s)) s) ∧
      ReadsAndEnds (.movuWMem d md r) md r s
        (operandEnd .dword 2 d md r (movedOf .dword s.flags (zeroExtended .word (memoryValue r 2 s))) s) ∧
      ReadsAndEnds (.movsWMem d md r) md r s
        (operandEnd .dword 2 d md r (movedOf .dword s.flags (signExtended .word (memoryValue r 2 s))) s)) ∧
    (OperandReady md r 4 s →
      ReadsAndEnds (.moveDMem d md r) md r s
        (operandEnd .dword 4 d md r (movedOf .dword s.flags (memoryValue r 4 s)) s))) ∧
  ∀ (s : State) (d : RegNo), d ≠ 15#4 → OperandReady true 14#4 4 s →
    ReadsAndEnds (.popReg d) true 14#4 s
      (operandEnd .dword 4 d true 14#4 (movedOf .dword s.flags (memoryValue 14#4 4 s)) s)

/-- Memory forms whose destination is PC jump to the result, with the flags set (R30, R29, R216, R243, R283, R256; log
39). -/
def Obligations.PcDestinationMemory : Prop :=
  (∀ (s : State) (d r : RegNo) (md : Bool), s.delay = none → threeOperandDest d md r s = 15#4 →
    (d = 15#4 → isInline md r s = false) →
    (OperandReady md r 1 s →
      (∃ s₁, ReadOnly (isInline md r s) s s₁ ∧ exec (.addBMem d md r) s =
        pcResult .byte (sumOf .byte s.flags (readReg d s) (memoryValue r 1 s)) (updateAddress md r 1 (operandAddress r s) s₁)) ∧
      (∃ s₁, ReadOnly (isInline md r s) s s₁ ∧ exec (.adduBMem d md r) s =
        pcResult .dword (sumOf .dword s.flags (readReg d s) (zeroExtended .byte (memoryValue r 1 s))) (updateAddress md r 1 (operandAddress r s) s₁)) ∧
      (∃ s₁, ReadOnly (isInline md r s) s s₁ ∧ exec (.addsBMem d md r) s =
        pcResult .dword (sumOf .dword s.flags (readReg d s) (signExtended .byte (memoryValue r 1 s))) (updateAddress md r 1 (operandAddress r s) s₁)) ∧
      (∃ s₁, ReadOnly (isInline md r s) s s₁ ∧ exec (.subBMem d md r) s =
        pcResult .byte (differenceOf .byte s.flags (readReg d s) (memoryValue r 1 s)) (updateAddress md r 1 (operandAddress r s) s₁)) ∧
      (∃ s₁, ReadOnly (isInline md r s) s s₁ ∧ exec (.subuBMem d md r) s =
        pcResult .dword (differenceOf .dword s.flags (readReg d s) (zeroExtended .byte (memoryValue r 1 s))) (updateAddress md r 1 (operandAddress r s) s₁)) ∧
      (∃ s₁, ReadOnly (isInline md r s) s s₁ ∧ exec (.subsBMem d md r) s =
        pcResult .dword (differenceOf .dword s.flags (readReg d s) (signExtended .byte (memoryValue r 1 s))) (updateAddress md r 1 (operandAddress r s) s₁)) ∧
      (∃ s₁, ReadOnly (isInline md r s) s s₁ ∧ exec (.andBMem d md r) s =
        pcResult .byte (andOf .byte s.flags (readReg d s) (memoryValue r 1 s)) (updateAddress md r 1 (operandAddress r s) s₁)) ∧
      (∃ s₁, ReadOnly (isInline md r s) s s₁ ∧ exec (.orBMem d md r) s =
        pcResult .byte (orOf .byte s.flags (readReg d s) (memoryValue r 1 s)) (updateAddress md r 1 (operandAddress r s) s₁))) ∧
    (OperandReady md r 2 s →
      (∃ s₁, ReadOnly (isInline md r s) s s₁ ∧ exec (.addWMem d md r) s =
        pcResult .word (sumOf .word s.flags (readReg d s) (memoryValue r 2 s)) (updateAddress md r 2 (operandAddress r s) s₁)) ∧
      (∃ s₁, ReadOnly (isInline md r s) s s₁ ∧ exec (.adduWMem d md r) s =
        pcResult .dword (sumOf .dword s.flags (readReg d s) (zeroExtended .word (memoryValue r 2 s))) (updateAddress md r 2 (operandAddress r s) s₁)) ∧
      (∃ s₁, ReadOnly (isInline md r s) s s₁ ∧ exec (.addsWMem d md r) s =
        pcResult .dword (sumOf .dword s.flags (readReg d s) (signExtended .word (memoryValue r 2 s))) (updateAddress md r 2 (operandAddress r s) s₁)) ∧
      (∃ s₁, ReadOnly (isInline md r s) s s₁ ∧ exec (.subWMem d md r) s =
        pcResult .word (differenceOf .word s.flags (readReg d s) (memoryValue r 2 s)) (updateAddress md r 2 (operandAddress r s) s₁)) ∧
      (∃ s₁, ReadOnly (isInline md r s) s s₁ ∧ exec (.subuWMem d md r) s =
        pcResult .dword (differenceOf .dword s.flags (readReg d s) (zeroExtended .word (memoryValue r 2 s))) (updateAddress md r 2 (operandAddress r s) s₁)) ∧
      (∃ s₁, ReadOnly (isInline md r s) s s₁ ∧ exec (.subsWMem d md r) s =
        pcResult .dword (differenceOf .dword s.flags (readReg d s) (signExtended .word (memoryValue r 2 s))) (updateAddress md r 2 (operandAddress r s) s₁)) ∧
      (∃ s₁, ReadOnly (isInline md r s) s s₁ ∧ exec (.andWMem d md r) s =
        pcResult .word (andOf .word s.flags (readReg d s) (memoryValue r 2 s)) (updateAddress md r 2 (operandAddress r s) s₁)) ∧
      (∃ s₁, ReadOnly (isInline md r s) s s₁ ∧ exec (.orWMem d md r) s =
        pcResult .word (orOf .word s.flags (readReg d s) (memoryValue r 2 s)) (updateAddress md r 2 (operandAddress r s) s₁))) ∧
    (OperandReady md r 4 s →
      (∃ s₁, ReadOnly (isInline md r s) s s₁ ∧ exec (.addDMem d md r) s =
        pcResult .dword (sumOf .dword s.flags (readReg d s) (memoryValue r 4 s)) (updateAddress md r 4 (operandAddress r s) s₁)) ∧
      (∃ s₁, ReadOnly (isInline md r s) s s₁ ∧ exec (.subDMem d md r) s =
        pcResult .dword (differenceOf .dword s.flags (readReg d s) (memoryValue r 4 s)) (updateAddress md r 4 (operandAddress r s) s₁)) ∧
      (∃ s₁, ReadOnly (isInline md r s) s s₁ ∧ exec (.andDMem d md r) s =
        pcResult .dword (andOf .dword s.flags (readReg d s) (memoryValue r 4 s)) (updateAddress md r 4 (operandAddress r s) s₁)) ∧
      (∃ s₁, ReadOnly (isInline md r s) s s₁ ∧ exec (.orDMem d md r) s =
        pcResult .dword (orOf .dword s.flags (readReg d s) (memoryValue r 4 s)) (updateAddress md r 4 (operandAddress r s) s₁)))) ∧
  (∀ (s : State) (r : RegNo) (md : Bool), s.delay = none → (s.prefixAddr.isSome = true → md = false → r = 15#4) →
    (OperandReady md r 1 s →
      (∃ s₁, ReadOnly (isInline md r s) s s₁ ∧ exec (.moveBMem 15#4 md r) s =
        pcResult .byte (movedOf .byte s.flags (memoryValue r 1 s)) (updateAddress md r 1 (operandAddress r s) s₁)) ∧
      (∃ s₁, ReadOnly (isInline md r s) s s₁ ∧ exec (.movuBMem 15#4 md r) s =
        pcResult .dword (movedOf .dword s.flags (zeroExtended .byte (memoryValue r 1 s))) (updateAddress md r 1 (operandAddress r s) s₁)) ∧
      (∃ s₁, ReadOnly (isInline md r s) s s₁ ∧ exec (.movsBMem 15#4 md r) s =
        pcResult .dword (movedOf .dword s.flags (signExtended .byte (memoryValue r 1 s))) (updateAddress md r 1 (operandAddress r s) s₁))) ∧
    (OperandReady md r 2 s →
      (∃ s₁, ReadOnly (isInline md r s) s s₁ ∧ exec (.moveWMem 15#4 md r) s =
        pcResult .word (movedOf .word s.flags (memoryValue r 2 s)) (updateAddress md r 2 (operandAddress r s) s₁)) ∧
      (∃ s₁, ReadOnly (isInline md r s) s s₁ ∧ exec (.movuWMem 15#4 md r) s =
        pcResult .dword (movedOf .dword s.flags (zeroExtended .word (memoryValue r 2 s))) (updateAddress md r 2 (operandAddress r s) s₁)) ∧
      (∃ s₁, ReadOnly (isInline md r s) s s₁ ∧ exec (.movsWMem 15#4 md r) s =
        pcResult .dword (movedOf .dword s.flags (signExtended .word (memoryValue r 2 s))) (updateAddress md r 2 (operandAddress r s) s₁))) ∧
    (OperandReady md r 4 s →
      (∃ s₁, ReadOnly (isInline md r s) s s₁ ∧ exec (.moveDMem 15#4 md r) s =
        pcResult .dword (movedOf .dword s.flags (memoryValue r 4 s)) (updateAddress md r 4 (operandAddress r s) s₁)))) ∧
  ∀ s : State, s.delay = none → OperandReady true 14#4 4 s →
    (∃ s₁, ReadOnly (isInline true 14#4 s) s s₁ ∧ exec (.popReg 15#4) s =
        pcResult .dword (movedOf .dword s.flags (memoryValue 14#4 4 s)) (updateAddress true 14#4 4 (operandAddress 14#4 s) s₁))

/-- MOVE.m Rs to memory, CLEAR, MOVE Ps to memory and PUSH store their bytes and nothing else (R240, R245, R248, R258,
R259, R72, R73, R76, R207, R208; log 33, 44). -/
def Obligations.Stores : Prop :=
  ∀ (s : State) (d r : RegNo) (md : Bool), storeSuppressed s = false →
    (StoreReady md d 1 s →
      StoresAndEnds (.moveBStore r md d) md d 1 (readReg r s) false s ∧
      StoresAndEnds (.clearBMem md d) md d 1 0#32 true s) ∧
    (StoreReady md d 2 s →
      StoresAndEnds (.moveWStore r md d) md d 2 (readReg r s) false s ∧
      StoresAndEnds (.clearWMem md d) md d 2 0#32 true s) ∧
    (StoreReady md d 4 s →
      StoresAndEnds (.moveDStore r md d) md d 4 (readReg r s) false s ∧
      StoresAndEnds (.clearDMem md d) md d 4 0#32 true s) ∧
    (∀ (p : SReg) (z : Size), sregSize p = some z → StoreReady md d (sizeBytes z) s →
      StoresAndEnds (.moveFromSpecialMem p md d) md d (sizeBytes z) (readSreg p s) true s) ∧
    (StoreReady true 14#4 4 s → StoresAndEnds (.pushReg r) true 14#4 4 (readReg r s) false s) ∧
    ∀ (p : SReg) (z : Size), sregSize p = some z → StoreReady true 14#4 (sizeBytes z) s →
      StoresAndEnds (.pushSpecial p) true 14#4 (sizeBytes z) (readSreg p s) true s

/-- With F and X set a store writes nothing and sets P; the rest of the instruction happens (R76, R68, R207, R255; log
30, 33). -/
def Obligations.SuppressedStores : Prop :=
  ∀ (s : State) (d r : RegNo) (md : Bool), s.flags.f = true → s.flags.x = true → s.resume = none → SlotOk s →
    (s.delay.isSome = true → s.prefixAddr = none ∧ isInline md d s = false) →
    (md = true → d = 15#4 → s.prefixAddr = none) →
    exec (.moveBStore r md d) s = .next (suppressedEnd md d 1 false s) ∧
    exec (.moveWStore r md d) s = .next (suppressedEnd md d 2 false s) ∧
    exec (.moveDStore r md d) s = .next (suppressedEnd md d 4 false s) ∧
    exec (.clearBMem md d) s = .next (suppressedEnd md d 1 true s) ∧
    exec (.clearWMem md d) s = .next (suppressedEnd md d 2 true s) ∧
    exec (.clearDMem md d) s = .next (suppressedEnd md d 4 true s) ∧
    (∀ (p : SReg) (z : Size), sregSize p = some z →
      exec (.moveFromSpecialMem p md d) s = .next (suppressedEnd md d (sizeBytes z) true s)) ∧
    (md = true → d = 14#4 → exec (.pushReg r) s = .next (suppressedEnd true 14#4 4 false s)) ∧
    (∀ (p : SReg) (z : Size), sregSize p = some z → md = true → d = 14#4 →
      exec (.pushSpecial p) s = .next (suppressedEnd true 14#4 (sizeBytes z) true s)) ∧
    exec (.movemStore r md d) s = .next (suppressedEnd md d (4 * (r.toNat + 1)) false s)

/-- What each special register reads as and what a write to it does, in both modes (R33, R34, R35, R37, R42, R43, R46,
R48, R66, R246, R247; log 11). -/
def Obligations.SpecialRegisterFile : Prop :=
  ∀ (s : State) (v : Word),
    (∀ p, p = .p0 ∨ p = .p4 ∨ p = .p8 → readSreg p s = 0#32 ∧ writeSreg p v s = s) ∧
    readSreg .vr s = 10#32 ∧ writeSreg .vr v s = s ∧
    readSreg .mof (writeSreg .mof v s) = v ∧ writeSreg .mof v s = { s with sregs := { s.sregs with mof := v } } ∧
    readSreg .irp (writeSreg .irp v s) = v ∧ writeSreg .irp v s = { s with sregs := { s.sregs with irp := v } } ∧
    readSreg .srp (writeSreg .srp v s) = v ∧ writeSreg .srp v s = { s with sregs := { s.sregs with srp := v } } ∧
    readSreg .brp (writeSreg .brp v s) = v ∧ writeSreg .brp v s = { s with sregs := { s.sregs with brp := v } } ∧
    readSreg .usp (writeSreg .usp v s) = v ∧ writeSreg .usp v s = { s with usp := v } ∧
    readSreg .ibr s = s.sregs.ibr ++ 0#16 ∧
    (s.mode = .supervisor → writeSreg .ibr v s = { s with sregs := { s.sregs with ibr := v.extractLsb' 16 16 } } ∧
      writeSreg .bar v s = { s with sregs := { s.sregs with bar := v } } ∧ readSreg .bar (writeSreg .bar v s) = v) ∧
    (s.mode = .user → writeSreg .ibr v s = s ∧ writeSreg .bar v s = s) ∧
    (∀ p, p = .ccr ∨ p = .dccr →
      (∀ i, (readSreg p s).getLsbD i = match i with
        | 0 => s.flags.c | 1 => s.flags.v | 2 => s.flags.z | 3 => s.flags.n | 4 => s.flags.x | 5 => s.flags.i
        | 6 => s.flags.b | 7 => s.flags.m | 8 => s.flags.u | 9 => s.flags.p | 10 => s.flags.f | _ => false) ∧
      writeSreg p v s = { s with flags := { s.flags with
        c := v.getLsbD 0, v := v.getLsbD 1, z := v.getLsbD 2, n := v.getLsbD 3
        i := if s.mode = .supervisor then v.getLsbD 5 else s.flags.i
        b := if s.mode = .supervisor then v.getLsbD 6 else s.flags.b
        u := v.getLsbD 8, p := v.getLsbD 9, f := v.getLsbD 10 } })

/-- MOVE to a special register and POP Pd complete for every register that has a width, in both modes (R246, R247,
R257, R33, R50, R66). -/
def Obligations.MovesToSpecial : Prop :=
  ∀ (s : State) (p : SReg) (z : Size), sregSize p = some z →
    (∀ r, s.prefixAddr = none → SlotOk s →
      exec (.moveToSpecial p r) s =
        .next (finished (pcPlus2 s) true false (writeSreg p (zeroExtended z (readReg r s)) s))) ∧
    (∀ r md, OperandReady md r (sizeBytes z) s →
      ReadsAndEnds (.moveToSpecialMem p md r) md r s fun s₁ => finished (endAddress md r (sizeBytes z) s) true false
        (writeSreg p (memoryValue r (sizeBytes z) s) (updateAddress md r (sizeBytes z) (operandAddress r s) s₁))) ∧
    (OperandReady true 14#4 (sizeBytes z) s →
      ReadsAndEnds (.popSpecial p) true 14#4 s fun s₁ => finished (endAddress true 14#4 (sizeBytes z) s) true false
        (writeSreg p (memoryValue 14#4 (sizeBytes z) s)
          (updateAddress true 14#4 (sizeBytes z) (operandAddress 14#4 s) s₁)))

/-- MOVE from a special register to a general register, and CLEAR of a register, complete (R248, R240, R33, R50, R22).
-/
def Obligations.MovesFromSpecial : Prop :=
  ∀ (s : State) (d : RegNo), s.prefixAddr = none → SlotOk s → d ≠ 15#4 →
    (∀ (p : SReg) (z : Size), sregSize p = some z →
      exec (.moveFromSpecial p d) s =
        .next (finished (pcPlus2 s) true false (withResult z d (readSreg p s, s.flags) s))) ∧
    exec (.clearBReg d) s =
      .next (finished (pcPlus2 s) true false (withResult .byte d (0#32, s.flags) s)) ∧
    exec (.clearWReg d) s =
      .next (finished (pcPlus2 s) true false (withResult .word d (0#32, s.flags) s)) ∧
    exec (.clearDReg d) s =
      .next (finished (pcPlus2 s) true false (withResult .dword d (0#32, s.flags) s))

/-- RET, RETB, RETI and other moves to PC are delayed jumps; after the slot of RETI and RETB the mode follows U (R422,
R423, R424, R425, R426, R249, R240, R31; log 39, 28). -/
def Obligations.Returns : Prop :=
  (∀ s : State, s.prefixAddr = none → s.delay = none →
    exec .ret s = .next (delayedTo (pcPlus2 s) s.sregs.srp false s) ∧
    exec .retb s = .next (delayedTo (pcPlus2 s) s.sregs.brp true s) ∧
    exec .reti s = .next (delayedTo (pcPlus2 s) s.sregs.irp true s) ∧
    exec (.clearBReg 15#4) s = .next (delayedTo (pcPlus2 s) (mergeSize .byte (pcPlus2 s) 0#32) false s) ∧
    exec (.clearWReg 15#4) s = .next (delayedTo (pcPlus2 s) (mergeSize .word (pcPlus2 s) 0#32) false s) ∧
    exec (.clearDReg 15#4) s = .next (delayedTo (pcPlus2 s) 0#32 false s) ∧
    ∀ (p : SReg) (z : Size), sregSize p = some z →
      exec (.moveFromSpecial p 15#4) s =
        .next (delayedTo (pcPlus2 s) (mergeSize z (pcPlus2 s) (readSreg p s)) (p == .irp || p == .brp) s)) ∧
  (∀ s : State, s.prefixAddr = none → s.delay = none →
    (s.sregs.irp.getLsbD 0 = false → ∃ t₁ t₂, exec .reti s = .next t₁ ∧ exec .nop t₁ = .next t₂ ∧ t₂.pc = s.sregs.irp ∧
      t₂.mode = if s.flags.u then .user else s.mode) ∧
    (s.sregs.brp.getLsbD 0 = false → ∃ t₁ t₂, exec .retb s = .next t₁ ∧ exec .nop t₁ = .next t₂ ∧ t₂.pc = s.sregs.brp ∧
      t₂.mode = if s.flags.u then .user else s.mode) ∧
    (s.sregs.srp.getLsbD 0 = false → ∃ t₁ t₂, exec .ret s = .next t₁ ∧ exec .nop t₁ = .next t₂ ∧ t₂.pc = s.sregs.srp ∧
      t₂.mode = s.mode)) ∧
  ∀ s : State, s.prefixAddr = none → s.delay.isSome = true → SlotOk s →
    exec .reti s = .next (finished (pcPlus2 s) true false s) ∧
    exec .retb s = .next (finished (pcPlus2 s) true false s)

/-- MOVEM loads or stores R0 to Rn, Rn at the lowest address, then updates the address register (R253, R254, R243,
R205, R255, R207, R208, R29; log 33, 44). -/
def Obligations.MultipleMoves : Prop :=
  ((∀ (s : State) (d r : RegNo) (md : Bool), Plain s → s.resume = none → SlotOk s →
    (s.delay.isSome = true → s.prefixAddr = none ∧ isInline md r s = false) →
    (md = true → r = 15#4 → s.prefixAddr = none) → (md = true → d.toNat < r.toNat) → d ≠ 15#4 →
    (if isInline md r s then
        ∀ k, k ≤ d.toNat → Fetchable s (operandAddress r s + BitVec.ofNat 32 (4 * k))
      else Readable s (operandAddress r s) (4 * (d.toNat + 1))) →
    ∃ s₁, RegistersLoaded (isInline md r s) d (operandAddress r s) s s₁ ∧
      exec (.movemLoad d md r) s = .next (finished (endAddress md r (4 * (d.toNat + 1)) s) false false
        (updateAddress md r (4 * (d.toNat + 1)) (operandAddress r s) s₁))) ∧
  ∀ (s : State) (r : RegNo), Plain s → s.resume = none → s.delay = none → Readable s (operandAddress r s) 64 →
    (loadBytes s.mem (operandAddress r s) 4).getLsbD 0 = false →
    ∃ s₁, RegistersLoaded false 15#4 (operandAddress r s) s s₁ ∧
      exec (.movemLoad 15#4 false r) s = .next (jumped (loadBytes s.mem (operandAddress r s) 4) false s₁)) ∧
  (∀ (s : State) (d r : RegNo) (md : Bool), StoreReady md d (4 * (r.toNat + 1)) s → storeSuppressed s = false →
    ∃ s₁, RegistersStored r (operandAddress d s) s s₁ ∧
      exec (.movemStore r md d) s = .next (finished (endAddress md d (4 * (r.toNat + 1)) s) false false
        (updateAddress md d (4 * (r.toNat + 1)) (operandAddress d s) s₁)))

/-- Bcc with an 8-bit or 16-bit offset: delayed jump if the condition holds, else on; the window opens either way
(R400, R401, R402, R403, R31). -/
def Obligations.Branches : Prop :=
  (∀ (s : State) (c : Cond) (o : BitVec 8), s.prefixAddr = none → s.delay = none →
    (condHolds c s.flags = true → exec (.bcc c o) s = .next (delayedTo (pcPlus2 s)
      (pcPlus2 s + BitVec.ofInt 32 (2 * (o.toNat / 2) - 256 * (o.toNat % 2))) false s)) ∧
    (condHolds c s.flags = false → exec (.bcc c o) s = .next (finished (pcPlus2 s) true false s))) ∧
  ∀ (s : State) (c : Cond), s.prefixAddr = none → s.delay = none → s.resume = none → Plain s →
    Fetchable s (s.pc + 2#32) →
    ∃ s₁, ReadOnly true s s₁ ∧
      (condHolds c s.flags = true → exec (.bcc16 c) s = .next (delayedTo (s.pc + 4#32)
        (s.pc + 4#32 + signExtended .word (loadBytes s.mem (s.pc + 2#32) 2)) false s₁)) ∧
      (condHolds c s.flags = false → exec (.bcc16 c) s = .next (finished (s.pc + 4#32) true false s₁))

/-- JUMP, JSR, JIR, JSRC, JIRC, JBRC and JMPU jump at once, save the return address, and open the window (R406, R407,
R408, R409, R410, R411, R412, R413). -/
def Obligations.Jumps : Prop :=
  (∀ (s : State) (r : RegNo), s.prefixAddr = none → s.delay = none → (readReg r s).getLsbD 0 = false →
    exec (.jumpReg r) s = .next (jumped (readReg r s) true s) ∧
    exec (.jsrReg r) s = .next (jumped (readReg r s) true { s with sregs := { s.sregs with srp := pcPlus2 s } }) ∧
    exec (.jirReg r) s = .next (jumped (readReg r s) true { s with sregs := { s.sregs with irp := pcPlus2 s } }) ∧
    exec (.jsrcReg r) s = .next (jumped (readReg r s) true { s with sregs := { s.sregs with srp := pcPlus2 s + 4#32 } }) ∧
    exec (.jircReg r) s = .next (jumped (readReg r s) true { s with sregs := { s.sregs with irp := pcPlus2 s + 4#32 } }) ∧
    exec (.jbrcReg r) s = .next (jumped (readReg r s) true { s with sregs := { s.sregs with brp := pcPlus2 s + 4#32 } })) ∧
  ∀ (s : State) (r : RegNo) (md : Bool), OperandReady md r 4 s → s.delay = none → (memoryValue r 4 s).getLsbD 0 = false →
    (∃ s₁, ReadOnly (isInline md r s) s s₁ ∧ exec (.jump md r) s = .next (jumped (memoryValue r 4 s) true
        (updateAddress md r 4 (operandAddress r s) s₁))) ∧
    (∃ s₁, ReadOnly (isInline md r s) s s₁ ∧ exec (.jsr md r) s = .next (jumped (memoryValue r 4 s) true
        { (updateAddress md r 4 (operandAddress r s) s₁) with sregs := { s.sregs with srp := endAddress md r 4 s } })) ∧
    (∃ s₁, ReadOnly (isInline md r s) s s₁ ∧ exec (.jir md r) s = .next (jumped (memoryValue r 4 s) true
        { (updateAddress md r 4 (operandAddress r s) s₁) with sregs := { s.sregs with irp := endAddress md r 4 s } })) ∧
    (∃ s₁, ReadOnly (isInline md r s) s s₁ ∧ exec (.jsrc md r) s = .next (jumped (memoryValue r 4 s) true
        { (updateAddress md r 4 (operandAddress r s) s₁) with sregs := { s.sregs with srp := endAddress md r 4 s + 4#32 } })) ∧
    (∃ s₁, ReadOnly (isInline md r s) s s₁ ∧ exec (.jirc md r) s = .next (jumped (memoryValue r 4 s) true
        { (updateAddress md r 4 (operandAddress r s) s₁) with sregs := { s.sregs with irp := endAddress md r 4 s + 4#32 } })) ∧
    (∃ s₁, ReadOnly (isInline md r s) s s₁ ∧ exec (.jbrc md r) s = .next (jumped (memoryValue r 4 s) true
        { (updateAddress md r 4 (operandAddress r s) s₁) with sregs := { s.sregs with brp := endAddress md r 4 s + 4#32 } })) ∧
    (∃ s₁, ReadOnly (isInline md r s) s s₁ ∧ exec (.jmpu md r) s = .next (jumped (memoryValue r 4 s) true
        { updateAddress md r 4 (operandAddress r s) s₁ with mode := if s.flags.u then .user else s.mode }))

/-- BREAK n (R415). -/
def Obligations.BreakInstruction : Prop :=
  ∀ (s : State) (n : BitVec 4), s.prefixAddr = none → s.delay = none →
    exec (.breakN n) s = .next (jumped (readSreg .ibr s + BitVec.ofNat 32 (8 * n.toNat)) false
      { trapped s with sregs := { s.sregs with brp := pcPlus2 s } })

/-- SETF, CLEARF, AX, EI, DI and NOP, in both modes (R381, R382, R383, R384, R385, R386). -/
def Obligations.FlagInstructions : Prop :=
  ∀ (s : State) (k : BitVec 8) (g : Bool), s.prefixAddr = none → SlotOk s → g = decide (s.mode = .supervisor) →
    exec (.setf k) s = .next (finished (pcPlus2 s) true true (withFlags { s.flags with
      c := s.flags.c || k.getLsbD 0, v := s.flags.v || k.getLsbD 1, z := s.flags.z || k.getLsbD 2
      n := s.flags.n || k.getLsbD 3, x := k.getLsbD 4, i := s.flags.i || (k.getLsbD 5 && g)
      b := s.flags.b || (k.getLsbD 6 && g), m := s.flags.m || (k.getLsbD 7 && g) } s)) ∧
    exec (.clearf k) s = .next (finished (pcPlus2 s) true true (withFlags { s.flags with
      c := s.flags.c && !k.getLsbD 0, v := s.flags.v && !k.getLsbD 1, z := s.flags.z && !k.getLsbD 2
      n := s.flags.n && !k.getLsbD 3, x := false, i := s.flags.i && !(k.getLsbD 5 && g)
      b := s.flags.b && !(k.getLsbD 6 && g), f := false, p := false } s)) ∧
    exec .ax s = .next (finished (pcPlus2 s) true true (withFlags { s.flags with x := true } s)) ∧
    exec .ei s = .next (finished (pcPlus2 s) true true (withFlags { s.flags with x := false, i := s.flags.i || g } s)) ∧
    exec .di s = .next (finished (pcPlus2 s) true true (withFlags { s.flags with x := false, i := s.flags.i && !g, f := false, p := false } s)) ∧
    exec .nop s = .next (finished (pcPlus2 s) false false s) ∧
    encode (.setf k) = 0x05B0#16 ||| ((k.extractLsb' 4 4).setWidth 16 <<< 12) ||| (k.extractLsb' 0 4).setWidth 16 ∧
    encode (.clearf k) = 0x05F0#16 ||| ((k.extractLsb' 4 4).setWidth 16 <<< 12) ||| (k.extractLsb' 0 4).setWidth 16 ∧
    encode .ax = 0x15B0#16 ∧ encode .ei = 0x25B0#16 ∧ encode .di = 0x25F0#16 ∧ encode .nop = 0x050F#16

/-- BIAP, BDAP and DIP compute their address, hand it to the next word and hold events back (R209, R210, R211, R212,
R213, R63, R67, R214; log 34, 27). -/
def Obligations.PrefixWords : Prop :=
  ((∀ (s : State) (k b : RegNo) (o : BitVec 8), s.prefixAddr = none → s.delay = none →
    exec (.biapB k b) s = .next (prefixed (pcPlus2 s)
      ((if b = 15#4 then pcPlus2 s + 2#32 else readReg b s) + readReg k s * 1#32) s) ∧
    exec (.biapW k b) s = .next (prefixed (pcPlus2 s)
      ((if b = 15#4 then pcPlus2 s + 2#32 else readReg b s) + readReg k s * 2#32) s) ∧
    exec (.biapD k b) s = .next (prefixed (pcPlus2 s)
      ((if b = 15#4 then pcPlus2 s + 2#32 else readReg b s) + readReg k s * 4#32) s) ∧
    exec (.bdapByte b o) s = .next (prefixed (pcPlus2 s) (readReg b s + o.signExtend 32) s)) ∧
  ∀ (s : State) (b r : RegNo) (md : Bool), s.prefixAddr = none → s.delay = none → s.resume = none → Plain s →
    ((if isInline md r s then Fetchable s (readReg r s) else Readable s (readReg r s) 1) →
      ∃ s₁, ReadOnly (isInline md r s) s s₁ ∧ exec (.bdapB b md r) s = .next (prefixed (endAddress md r 1 s)
        ((if b = 15#4 then endAddress md r 1 s else readReg b (updateAddress md r 1 (readReg r s) s₁)) +
          signExtended .byte (loadBytes s.mem (readReg r s) 1)) (updateAddress md r 1 (readReg r s) s₁))) ∧
    ((if isInline md r s then Fetchable s (readReg r s) else Readable s (readReg r s) 2) →
      ∃ s₁, ReadOnly (isInline md r s) s s₁ ∧ exec (.bdapW b md r) s = .next (prefixed (endAddress md r 2 s)
        ((if b = 15#4 then endAddress md r 2 s else readReg b (updateAddress md r 2 (readReg r s) s₁)) +
          signExtended .word (loadBytes s.mem (readReg r s) 2)) (updateAddress md r 2 (readReg r s) s₁))) ∧
    ((if isInline md r s then Fetchable s (readReg r s) else Readable s (readReg r s) 4) →
      ∃ s₁, ReadOnly (isInline md r s) s s₁ ∧ exec (.bdapD b md r) s = .next (prefixed (endAddress md r 4 s)
        ((if b = 15#4 then endAddress md r 4 s else readReg b (updateAddress md r 4 (readReg r s) s₁)) +
          signExtended .dword (loadBytes s.mem (readReg r s) 4)) (updateAddress md r 4 (readReg r s) s₁))) ∧
    ((if isInline md r s then Fetchable s (readReg r s) else Readable s (readReg r s) 4) →
      ∃ s₁, ReadOnly (isInline md r s) s s₁ ∧ exec (.dip md r) s = .next (prefixed (endAddress md r 4 s)
        (loadBytes s.mem (readReg r s) 4) (updateAddress md r 4 (readReg r s) s₁)))) ∧
  (∀ (s : State) (k b r : RegNo) (md : Bool) (a : Word), s.prefixAddr = some a → s.delay = none → s.resume = none →
    exec (.biapB k b) s = .next (prefixed (pcPlus2 s) (a + readReg k s * 1#32) s) ∧
    exec (.biapW k b) s = .next (prefixed (pcPlus2 s) (a + readReg k s * 2#32) s) ∧
    exec (.biapD k b) s = .next (prefixed (pcPlus2 s) (a + readReg k s * 4#32) s) ∧
    (Plain s → Readable s a 4 →
      (∃ s₁, ReadOnly false s s₁ ∧ exec (.bdapB b md r) s = .next (prefixed (pcPlus2 s)
        (readReg b s + signExtended .byte (loadBytes s.mem a 1)) s₁)) ∧
      (∃ s₁, ReadOnly false s s₁ ∧ exec (.bdapW b md r) s = .next (prefixed (pcPlus2 s)
        (readReg b s + signExtended .word (loadBytes s.mem a 2)) s₁)) ∧
      (∃ s₁, ReadOnly false s s₁ ∧ exec (.bdapD b md r) s = .next (prefixed (pcPlus2 s)
        (readReg b s + signExtended .dword (loadBytes s.mem a 4)) s₁)) ∧
      ∃ s₁, ReadOnly false s s₁ ∧ exec (.dip md r) s = .next (prefixed (pcPlus2 s) (loadBytes s.mem a 4) s₁)))

/-- SBFS stores the sixteen bytes of the hidden status registers, never suppressed (R430, R481, R76, R207; log 12,
33). -/
def Obligations.SaveStatus : Prop :=
  ∀ (s : State) (d : RegNo) (md : Bool), LayoutOk s.layout → StoreReady md d 16 s →
    ∃ s₁, RecordStored (operandAddress d s) s s₁ ∧
      exec (.sbfs md d) s = .next (finished (endAddress md d 16 s) false false
        (updateAddress md d 16 (operandAddress d s) s₁))

/-- RBF restores X, U and the mode from the record and sets up the restart it describes (R431, R481, R490, R488, R484;
log 12, 46, 24). -/
def Obligations.ReturnFromBusFault : Prop :=
  ∀ (s : State) (r : RegNo) (md : Bool) (rec : StatusRecord), LayoutOk s.layout → Plain s → s.resume = none →
    s.delay = none →
    (md = true → r = 15#4 → s.prefixAddr = none) →
    (if isInline md r s then ∀ k, k < 4 → Fetchable s (operandAddress r s + BitVec.ofNat 32 (4 * k))
      else Readable s (operandAddress r s) 16) →
    rec = recordAt s.layout s.mem (operandAddress r s) →
    ((rec.state.getLsbD 3 = true → rec.state.getLsbD 2 = true) → rec.pc.getLsbD 0 = false →
      (rec.state.getLsbD 4 = false → rec.state.getLsbD 5 = false → rec.addr.getLsbD 0 = false →
        (rec.state.getLsbD 2 = false → rec.pc = rec.addr + 2#32) →
        ReadsAndEnds (.rbf md r) md r s fun s₁ => resumed rec rec.addr (rec.addr + 2#32) none
          (if rec.state.getLsbD 1 then some rec.data else none) (updateAddress md r 16 (operandAddress r s) s₁)) ∧
      ∀ (m : MemoryForm) (next : Word), rec.state.getLsbD 4 = true → memoryForm (decodeWord rec.instr) = some m →
        (rec.state.getLsbD 5 = true → 4 < rec.addr.toNat % 4 + m.unit) →
        next = rec.pc - BitVec.ofNat 32 (if m.md && m.reg == 15#4 && !rec.state.getLsbD 1 && !rec.state.getLsbD 2 then
          (if m.bytes = 1 then 2 else m.bytes) else 0) →
        ReadsAndEnds (.rbf md r) md r s fun s₁ => resumed rec (next - 2#32) next
          (some { instr := rec.instr, addr := rec.addr, data := rec.data, second := rec.state.getLsbD 5 })
          (if rec.state.getLsbD 1 then some rec.addr else none) (updateAddress md r 16 (operandAddress r s) s₁)) ∧
    ((rec.state.getLsbD 3 = true ∧ rec.state.getLsbD 2 = false) ∨
        (rec.state.getLsbD 4 = true ∧ memoryForm (decodeWord rec.instr) = none) ∨
        (rec.state.getLsbD 4 = true ∧ rec.state.getLsbD 5 = true ∧
          ∃ m, memoryForm (decodeWord rec.instr) = some m ∧ rec.addr.toNat % 4 + m.unit ≤ 4) ∨
        (rec.state.getLsbD 4 = false ∧ rec.state.getLsbD 5 = true) ∨
        (rec.state.getLsbD 4 = false ∧ rec.state.getLsbD 2 = false ∧ rec.state.getLsbD 0 = false ∧
          rec.pc ≠ rec.addr + 2#32) →
      exec (.rbf md r) s = .refused .inconsistentRecord)

/-- What another agent writes between two bus cycles is in memory at the second; a split access is not atomic (R15,
R73, R83, R89; log 43). -/
def Obligations.OutsideWrites : Prop :=
  ∀ (s : State) (d r : RegNo) (a : Word) (k : Nat) (w₁ w₂ : List Host.Cell) (rest : List (List Host.Cell)),
    memWf s.mem = true → s.mmu.enable = false → s.mmu.testMode = false → s.steps = [] → s.mmuMap = [] →
    s.outside = w₁ :: w₂ :: rest → s.resume = none → s.delay = none → s.prefixAddr = none → s.flags.b = false →
    (d ≠ 15#4 → a = readReg r s → k = 4 - a.toNat % 4 → Readable s a 4 →
      ∃ m₁ m₂, OutsideWrote s w₁ s.mem m₁ ∧ OutsideWrote s w₂ m₁ m₂ ∧
        (k = 4 → exec (.moveDMem d false r) s = .next
          (operandEnd .dword 4 d false r (movedOf .dword s.flags (loadBytes m₁ a 4)) s
            { s with mem := m₁, outside := w₂ :: rest })) ∧
        (k ≠ 4 → exec (.moveDMem d false r) s = .next
          (operandEnd .dword 4 d false r (movedOf .dword s.flags
            (loadBytes m₁ a k ||| loadBytes m₂ (a + BitVec.ofNat 32 k) (4 - k) <<< (8 * k))) s
            { s with mem := m₂, outside := rest }))) ∧
    (a = readReg d s → Writable s a 1 → storeSuppressed s = false →
      ∃ m₁ s₁, OutsideWrote s w₁ s.mem m₁ ∧ StoredAt a 1 (readReg r s) m₁ s₁.mem ∧
        s₁ = { s with mem := s₁.mem, stores := s₁.stores, outside := w₂ :: rest } ∧
        exec (.moveBStore r false d) s = .next (finished (pcPlus2 s) false false s₁))
end

