-- ==== Sys2Proof/Laws/Encoding.lean ====
section
/-! SUPPORT. Sys2Proof/Laws/Encoding.lean: the fields of a word that `encode` builds, and how decoding such a word starts. -/

namespace Sys2Proof.Laws

/-! ## Fields of a word built from five fields -/

/-- Bit `i` of a word from its five fields. -/
theorem getLsbD_mkWord (a : BitVec 4) (b : BitVec 2) (c : BitVec 4) (d : BitVec 2) (e : BitVec 4) (i : Nat) :
    (mkWord a b c d e).getLsbD i =
      if i < 4 then e.getLsbD i else if i < 6 then d.getLsbD (i - 4) else if i < 10 then c.getLsbD (i - 6)
      else if i < 12 then b.getLsbD (i - 10) else a.getLsbD (i - 12) := by
  simp only [mkWord, BitVec.getLsbD_append]
  split_ifs <;> congr 1 <;> omega

section
variable (a : BitVec 4) (b : BitVec 2) (c : BitVec 4) (d : BitVec 2) (e : BitVec 4)

@[simp] theorem fieldOp2_mkWord : fieldOp2 (mkWord a b c d e) = a := by
  ext i hi
  rw [fieldOp2, BitVec.getElem_extractLsb', getLsbD_mkWord]
  split_ifs <;> first | omega | simp [BitVec.getLsbD_eq_getElem, hi]

@[simp] theorem fieldMode_mkWord : fieldMode (mkWord a b c d e) = b := by
  ext i hi
  rw [fieldMode, BitVec.getElem_extractLsb', getLsbD_mkWord]
  split_ifs <;> first | omega | simp [BitVec.getLsbD_eq_getElem, hi]

@[simp] theorem fieldOpcode_mkWord : fieldOpcode (mkWord a b c d e) = c := by
  ext i hi
  rw [fieldOpcode, BitVec.getElem_extractLsb', getLsbD_mkWord]
  split_ifs <;> first | omega | simp [BitVec.getLsbD_eq_getElem, hi]

@[simp] theorem fieldSize_mkWord : fieldSize (mkWord a b c d e) = d := by
  ext i hi
  rw [fieldSize, BitVec.getElem_extractLsb', getLsbD_mkWord]
  split_ifs <;> first | omega | simp [BitVec.getLsbD_eq_getElem, hi]

@[simp] theorem fieldOp1_mkWord : fieldOp1 (mkWord a b c d e) = e := by
  ext i hi
  rw [fieldOp1, BitVec.getElem_extractLsb', getLsbD_mkWord]
  split_ifs <;> first | omega | simp [BitVec.getLsbD_eq_getElem, hi]

@[simp] theorem fieldMask_mkWord : fieldMask (mkWord a b c d e) = a ++ e := by
  have h2 := fieldOp2_mkWord a b c d e
  have h1 := fieldOp1_mkWord a b c d e
  rw [fieldOp2] at h2
  rw [fieldOp1] at h1
  rw [fieldMask, h2, h1]

@[simp] theorem fieldMd_mkWord : fieldMd (mkWord a b c d e) = b.getLsbD 0 := by
  rw [fieldMd, getLsbD_mkWord]
  simp

end

@[simp] theorem memMode_bit (md : Bool) : (memMode md).getLsbD 0 = md := by cases md <;> rfl

/-! ## Fields of a quick word -/

section
variable (a : BitVec 4) (c : BitVec 4) (j : BitVec 6)

theorem getLsbD_mkQuick (i : Nat) :
    (mkQuick a c j).getLsbD i =
      if i < 6 then j.getLsbD i else if i < 10 then c.getLsbD (i - 6) else if i < 12 then false
      else a.getLsbD (i - 12) := by
  simp only [mkQuick, BitVec.getLsbD_append]
  split_ifs <;> first | omega | rfl | simp

@[simp] theorem fieldOp2_mkQuick : fieldOp2 (mkQuick a c j) = a := by
  ext i hi
  rw [fieldOp2, BitVec.getElem_extractLsb', getLsbD_mkQuick]
  split_ifs <;> first | omega | simp [BitVec.getLsbD_eq_getElem, hi]

@[simp] theorem fieldMode_mkQuick : fieldMode (mkQuick a c j) = 0#2 := by
  ext i hi
  rw [fieldMode, BitVec.getElem_extractLsb', getLsbD_mkQuick]
  split_ifs <;> first | omega | simp

@[simp] theorem fieldOpcode_mkQuick : fieldOpcode (mkQuick a c j) = c := by
  ext i hi
  rw [fieldOpcode, BitVec.getElem_extractLsb', getLsbD_mkQuick]
  split_ifs <;> first | omega | simp [BitVec.getLsbD_eq_getElem, hi]

@[simp] theorem fieldQuick_mkQuick : fieldQuick (mkQuick a c j) = j := by
  ext i hi
  rw [fieldQuick, BitVec.getElem_extractLsb', getLsbD_mkQuick]
  split_ifs <;> first | omega | simp [BitVec.getLsbD_eq_getElem, hi]

@[simp] theorem fieldCount_mkQuick : fieldCount (mkQuick a c j) = j.extractLsb' 0 5 := by
  ext i hi
  rw [fieldCount, BitVec.getElem_extractLsb', BitVec.getElem_extractLsb', getLsbD_mkQuick]
  split_ifs <;> first | omega | rfl

@[simp] theorem bit5_mkQuick : (mkQuick a c j)[5] = j[5] := by
  rw [← BitVec.getLsbD_eq_getElem, getLsbD_mkQuick]
  simp

end

@[simp] theorem quickCount_low (b : BitVec 1) (c : BitVec 5) : (b ++ c).extractLsb' 0 5 = c := by
  ext i hi
  rw [BitVec.getElem_extractLsb', Nat.zero_add, BitVec.getLsbD_append, if_pos hi, BitVec.getLsbD_eq_getElem]

@[simp] theorem quickCount_bit (b : BitVec 1) (c : BitVec 5) : (b ++ c)[5] = b[0] := by
  rw [BitVec.getElem_append]
  rfl

/-! ## Fields of a word with an 8-bit field -/

section
variable (a : BitVec 4) (t : BitVec 4) (o : BitVec 8)

theorem getLsbD_byteWord (i : Nat) :
    (a ++ t ++ o : Half).getLsbD i =
      if i < 8 then o.getLsbD i else if i < 12 then t.getLsbD (i - 8) else a.getLsbD (i - 12) := by
  simp only [BitVec.getLsbD_append]
  split_ifs <;> first | omega | rfl

theorem fieldOp2_byteWord : fieldOp2 (a ++ t ++ o) = a := by
  ext i hi
  rw [fieldOp2, BitVec.getElem_extractLsb', getLsbD_byteWord]
  split_ifs <;> first | omega | simp [BitVec.getLsbD_eq_getElem, hi]

theorem fieldByte_byteWord : fieldByte (a ++ t ++ o) = o := by
  ext i hi
  rw [fieldByte, BitVec.getElem_extractLsb', getLsbD_byteWord]
  split_ifs <;> first | omega | simp [BitVec.getLsbD_eq_getElem, hi]

theorem fieldMode_byteWord : fieldMode (a ++ t ++ o) = t.extractLsb' 2 2 := by
  ext i hi
  rw [fieldMode, BitVec.getElem_extractLsb', BitVec.getElem_extractLsb', getLsbD_byteWord]
  split_ifs <;> first | omega | (congr 1; omega)

theorem fieldOpcode_byteWord : fieldOpcode (a ++ t ++ o) = t.extractLsb' 0 2 ++ o.extractLsb' 6 2 := by
  ext i hi
  rw [fieldOpcode, BitVec.getElem_extractLsb', getLsbD_byteWord, BitVec.getElem_append]
  split_ifs <;> first | omega | (simp [BitVec.getElem_extractLsb']; done) | (simp [BitVec.getElem_extractLsb']; congr 1; omega)

end

/-! ## Codes -/

@[simp] theorem ofCode_code_cond (c : Cond) : Cond.ofCode c.code = c := by cases c <;> rfl
@[simp] theorem ofCode_code_sreg (p : SReg) : SReg.ofCode p.code = p := by cases p <;> rfl

/-- A mask in its two halves. -/
@[simp] theorem mask_halves (k : BitVec 8) : k.extractLsb' 4 4 ++ k.extractLsb' 0 4 = k := by
  ext i hi
  rw [BitVec.getElem_append]
  split_ifs with h
  · simp [BitVec.getElem_extractLsb', BitVec.getLsbD_eq_getElem, hi]
  · simp only [BitVec.getElem_extractLsb']
    rw [show 4 + (i - 4) = i by omega, BitVec.getLsbD_eq_getElem]

end Sys2Proof.Laws
end

