-- ==== Sys2Proof/Laws/Memory.lean ====
section
/-! SUPPORT. Sys2Proof/Laws/Memory.lean: a byte written is the byte read, other bytes stay, and every memory operation keeps
the canonical form. -/

namespace Sys2Proof.Laws

open Sys2Proof.Machine

/-! ## The canonical form -/

theorem memWfFrom_mono {lo lo' : Nat} (h : lo' ≤ lo) : ∀ {m : List Host.Cell}, memWfFrom lo m = true → memWfFrom lo' m = true
  | [], _ => rfl
  | (a, v) :: m, hm => by
    simp only [memWfFrom, Bool.and_eq_true, decide_eq_true_eq] at hm ⊢
    exact ⟨⟨⟨by omega, hm.1.1.2⟩, hm.1.2⟩, hm.2⟩

theorem memWfFrom_cons {lo a : Nat} {v : Byte} {m : List Host.Cell} :
    memWfFrom lo ((a, v) :: m) = true ↔ lo ≤ a ∧ a < physSize ∧ v ≠ unlistedByte ∧ memWfFrom (a + 1) m = true := by
  simp [memWfFrom, and_assoc]

theorem memWrite_keeps_wfFrom {a : Nat} (v : Byte) (ha : a < physSize) :
    ∀ {lo : Nat} {m : List Host.Cell}, lo ≤ a → memWfFrom lo m = true → memWfFrom lo (memWrite m a v) = true
  | lo, [], hlo, _ => by
    unfold memWrite
    split
    · rfl
    · next hv => simpa [memWfFrom, hlo, ha] using hv
  | lo, (b, x) :: m, hlo, hm => by
    obtain ⟨hb, hbs, hx, hrest⟩ := memWfFrom_cons.1 hm
    unfold memWrite
    split
    · next hab =>
      split
      · exact hm
      · next hv => exact memWfFrom_cons.2 ⟨hlo, ha, hv, memWfFrom_cons.2 ⟨hab, hbs, hx, hrest⟩⟩
    · split
      · next hab =>
        subst hab
        split
        · exact memWfFrom_mono (by omega) hrest
        · next hv => exact memWfFrom_cons.2 ⟨hlo, ha, hv, hrest⟩
      · exact memWfFrom_cons.2 ⟨hb, hbs, hx, memWrite_keeps_wfFrom v ha (by omega) hrest⟩

theorem memWrite_keeps_wf {m : List Host.Cell} {a : Nat} (v : Byte) (ha : a < physSize) (h : memWf m = true) :
    memWf (memWrite m a v) = true :=
  memWrite_keeps_wfFrom v ha (Nat.zero_le a) h

theorem physIndex_lt (pa : Word) (i : Nat) : physIndex pa i < physSize :=
  Nat.mod_lt _ (by decide)

theorem storeBytes_keeps_wf {m : List Host.Cell} (pa v : Word) (h : memWf m = true) :
    ∀ n, memWf (storeBytes m pa v n) = true
  | 0 => h
  | n + 1 => memWrite_keeps_wf _ (physIndex_lt pa n) (storeBytes_keeps_wf pa v h n)

theorem placeBytes_keeps_wf (pa : Word) :
    ∀ (l : List Byte) (i : Nat) (m : List Host.Cell), memWf m = true → memWf (placeBytes pa i l m) = true
  | [], _, _, h => h
  | b :: l, i, _, h => placeBytes_keeps_wf pa l (i + 1) _ (memWrite_keeps_wf b (physIndex_lt pa i) h)

theorem reset_memory_wf : memWf State.reset.mem = true := rfl

/-! ## Reading after writing -/

theorem memRead_of_lt {lo a : Nat} : ∀ {m : List Host.Cell}, memWfFrom lo m = true → a < lo → memRead m a = unlistedByte
  | [], _, _ => rfl
  | (b, x) :: m, hm, ha => by
    obtain ⟨hb, -, -, hrest⟩ := memWfFrom_cons.1 hm
    unfold memRead
    rw [if_neg (by omega), memRead_of_lt hrest (by omega)]

theorem memRead_memWrite_of_wfFrom (a : Nat) (v : Byte) (c : Nat) :
    ∀ {lo : Nat} {m : List Host.Cell}, memWfFrom lo m = true →
      memRead (memWrite m a v) c = if c = a then v else memRead m c
  | lo, [], _ => by
    unfold memWrite
    split <;> simp_all [memRead]
  | lo, (b, x) :: m, hm => by
    obtain ⟨hb, -, -, hrest⟩ := memWfFrom_cons.1 hm
    unfold memWrite
    split
    · next hab =>
      split
      · next hv =>
        by_cases hc : c = a
        · subst hc; subst hv
          rw [if_pos rfl, memRead, if_neg (by omega), memRead_of_lt hrest (by omega)]
        · rw [if_neg hc]
      · simp only [memRead]
    · split
      · next hab =>
        subst hab
        split
        · next hv =>
          subst hv
          by_cases hc : c = a
          · subst hc
            rw [if_pos rfl, memRead_of_lt hrest (by omega)]
          · simp [memRead, hc]
        · by_cases hc : c = a <;> simp [memRead, hc]
      · next h1 h2 =>
        simp only [memRead, memRead_memWrite_of_wfFrom a v c hrest]
        by_cases hcb : c = b
        · subst hcb
          simp only [if_true]
          rw [if_neg (fun h => h2 h.symm)]
        · simp only [hcb, if_false]

/-- The basic law of memory: the byte written is read back, every other byte reads as before. -/
theorem memRead_memWrite {m : List Host.Cell} (h : memWf m = true) (a : Nat) (v : Byte) (c : Nat) :
    memRead (memWrite m a v) c = if c = a then v else memRead m c :=
  memRead_memWrite_of_wfFrom a v c h

theorem memRead_memWrite_same {m : List Host.Cell} (h : memWf m = true) (a : Nat) (v : Byte) :
    memRead (memWrite m a v) a = v := by
  rw [memRead_memWrite h, if_pos rfl]

theorem memRead_memWrite_other {m : List Host.Cell} (h : memWf m = true) {a c : Nat} (v : Byte) (hc : c ≠ a) :
    memRead (memWrite m a v) c = memRead m c := by
  rw [memRead_memWrite h, if_neg hc]

/-! ## Several bytes -/

theorem memRead_storeBytes_other {m : List Host.Cell} (h : memWf m = true) (pa v : Word) {c : Nat} :
    ∀ n, (∀ i, i < n → c ≠ physIndex pa i) → memRead (storeBytes m pa v n) c = memRead m c
  | 0, _ => rfl
  | n + 1, hc => by
    rw [storeBytes, memRead_memWrite_other (storeBytes_keeps_wf pa v h n) _ (hc n (Nat.lt_succ_self n)),
      memRead_storeBytes_other h pa v n fun i hi => hc i (by omega)]

theorem physIndex_injective {pa : Word} {i j : Nat} (hi : i < physSize) (hj : j < physSize)
    (h : physIndex pa i = physIndex pa j) : i = j := by
  unfold physIndex physSize at *
  omega

theorem byte_of_shift (v : Word) (i : Nat) : (v >>> (8 * i)).setWidth 8 = v.extractLsb' (8 * i) 8 := by
  ext j hj
  simp [BitVec.getElem_extractLsb']

theorem memRead_storeBytes_at {m : List Host.Cell} (h : memWf m = true) (pa v : Word) {i : Nat} :
    ∀ n, n < physSize → i < n → memRead (storeBytes m pa v n) (physIndex pa i) = v.extractLsb' (8 * i) 8
  | n + 1, hn, hi => by
    rw [storeBytes, memRead_memWrite (storeBytes_keeps_wf pa v h n)]
    split
    · next heq =>
      rw [byte_of_shift, physIndex_injective (by omega) (by omega) heq]
    · next hne =>
      refine memRead_storeBytes_at h pa v n (by omega) ?_
      rcases Nat.lt_or_ge i n with h' | h'
      · exact h'
      · exact absurd (by rw [show i = n by omega]) hne

/-- What `storeBytes` does, in the words of the claims. -/
theorem storedAt_storeBytes {m : List Host.Cell} (h : memWf m = true) (pa v : Word) (n : Nat) (hn : n < physSize) :
    StoredAt pa n v m (storeBytes m pa v n) :=
  ⟨fun _ hi => memRead_storeBytes_at h pa v n hn hi, fun _ hx => memRead_storeBytes_other h pa v n hx⟩

/-! ## Another agent's writes (20_memory.md R89) -/

theorem outsideByte_keeps_wf (s : State) {m : List Host.Cell} (c : Host.Cell) (h : memWf m = true) :
    memWf (outsideByte s m c) = true := by
  unfold outsideByte
  split
  · next hc =>
    simp only [Bool.and_eq_true, decide_eq_true_eq] at hc
    exact memWrite_keeps_wf c.2 hc.1 h
  · exact h

theorem memRead_outsideByte (s : State) {m : List Host.Cell} (h : memWf m = true) (c : Host.Cell) (x : Nat) :
    memRead (outsideByte s m c) x =
      if (x < physSize ∧ regionKind s x = some .ram) ∧ c.1 = x then c.2 else memRead m x := by
  unfold outsideByte
  split
  · next hc =>
    simp only [Bool.and_eq_true, decide_eq_true_eq, beq_iff_eq] at hc
    rw [memRead_memWrite h]
    by_cases hx : x = c.1
    · subst hx; rw [if_pos rfl, if_pos ⟨hc, rfl⟩]
    · rw [if_neg hx, if_neg fun h' => hx h'.2.symm]
  · next hc =>
    rw [if_neg]
    rintro ⟨hx, rfl⟩
    exact hc (by simpa using hx)

theorem afterOutside_append (s : State) (m : List Host.Cell) (cells : List Host.Cell) (c : Host.Cell) (x : Nat) :
    afterOutside s m (cells ++ [c]) x =
      if (x < physSize ∧ regionKind s x = some .ram) ∧ c.1 = x then c.2 else afterOutside s m cells x := by
  unfold afterOutside
  by_cases hx : x < physSize ∧ regionKind s x = some .ram
  · by_cases hc : c.1 = x <;> simp [hx, hc]
  · rw [if_neg hx, if_neg hx, if_neg fun h => hx h.1]

/-- What another agent's writes leave, in the words of the claims. -/
theorem outsideWrote_foldl (s : State) {m : List Host.Cell} (h : memWf m = true) (cells : List Host.Cell) :
    OutsideWrote s cells m (cells.foldl (outsideByte s) m) := by
  induction cells using List.reverseRecOn with
  | nil => exact ⟨h, fun x => by simp [afterOutside]⟩
  | append_singleton cells c ih =>
    rw [List.foldl_append]
    refine ⟨outsideByte_keeps_wf s c ih.1, fun x => ?_⟩
    rw [List.foldl_cons, List.foldl_nil, memRead_outsideByte s ih.1, afterOutside_append, ← ih.2 x]

/-- All that `popOutside` does: the next writes in the list are made, the later ones stay. -/
theorem popOutside_spec (s : State) (h : memWf s.mem = true) :
    OutsideWrote s (s.outside.headD []) s.mem (popOutside s).mem ∧
      popOutside s = { s with mem := (popOutside s).mem, outside := s.outside.tail } := by
  unfold popOutside
  split
  · next e => exact ⟨by simpa [e] using outsideWrote_foldl s h [], by cases s; simp_all⟩
  · next cells rest e => exact ⟨by simpa [e] using outsideWrote_foldl s h cells, by simp [e]⟩

/-- The byte `i` of a datum at `a + k` is byte `k + i` of one at `a`: 2^32 is a multiple of the number of addresses. -/
theorem physIndex_add (a : Word) (k i : Nat) : physIndex (a + BitVec.ofNat 32 k) i = physIndex a (k + i) := by
  unfold physIndex physSize
  rw [BitVec.toNat_add, BitVec.toNat_ofNat]
  omega

end Sys2Proof.Laws
end

