-- ==== Sys2Proof/Laws/State.lean ====
section
/-! SUPPORT. Sys2Proof/Laws/State.lean: for each named update of the state, one lemma per field. -/

namespace Sys2Proof.Laws

open Sys2Proof.Machine

/-! ## `settle` -/

@[simp] theorem settle_regs (e : Ending) (s : State) : (settle e s).regs = s.regs := rfl
@[simp] theorem settle_ssp (e : Ending) (s : State) : (settle e s).ssp = s.ssp := rfl
@[simp] theorem settle_usp (e : Ending) (s : State) : (settle e s).usp = s.usp := rfl
@[simp] theorem settle_pc (e : Ending) (s : State) : (settle e s).pc = s.pc := rfl
@[simp] theorem settle_mode (e : Ending) (s : State) : (settle e s).mode = s.mode := rfl
@[simp] theorem settle_flags (e : Ending) (s : State) :
    (settle e s).flags = { s.flags with x := s.flags.x && e.keepX } := rfl
@[simp] theorem settle_sregs (e : Ending) (s : State) : (settle e s).sregs = s.sregs := rfl
@[simp] theorem settle_delay (e : Ending) (s : State) : (settle e s).delay = s.delay := rfl
@[simp] theorem settle_prefixAddr (e : Ending) (s : State) :
    (settle e s).prefixAddr = none := rfl
@[simp] theorem settle_inhibit (e : Ending) (s : State) :
    (settle e s).inhibit = e.window := rfl
@[simp] theorem settle_hwbreakPending (e : Ending) (s : State) : (settle e s).hwbreakPending = s.hwbreakPending := rfl
@[simp] theorem settle_prefetch (e : Ending) (s : State) : (settle e s).prefetch = s.prefetch := rfl
@[simp] theorem settle_hidden (e : Ending) (s : State) : (settle e s).hidden = s.hidden := rfl
@[simp] theorem settle_resume (e : Ending) (s : State) :
    (settle e s).resume = none := rfl
@[simp] theorem settle_mmu (e : Ending) (s : State) : (settle e s).mmu = s.mmu := rfl
@[simp] theorem settle_mem (e : Ending) (s : State) : (settle e s).mem = s.mem := rfl
@[simp] theorem settle_stores (e : Ending) (s : State) : (settle e s).stores = s.stores := rfl
@[simp] theorem settle_physMap (e : Ending) (s : State) : (settle e s).physMap = s.physMap := rfl
@[simp] theorem settle_mmuMap (e : Ending) (s : State) : (settle e s).mmuMap = s.mmuMap := rfl
@[simp] theorem settle_layout (e : Ending) (s : State) : (settle e s).layout = s.layout := rfl
@[simp] theorem settle_irqs (e : Ending) (s : State) : (settle e s).irqs = s.irqs := rfl
@[simp] theorem settle_steps (e : Ending) (s : State) : (settle e s).steps = s.steps := rfl
@[simp] theorem settle_outside (e : Ending) (s : State) : (settle e s).outside = s.outside := rfl
@[simp] theorem settle_missCount (e : Ending) (s : State) : (settle e s).missCount = s.missCount := rfl
@[simp] theorem settle_freeCount (e : Ending) (s : State) : (settle e s).freeCount = s.freeCount := rfl

/-! ## `enterSupervisor` -/

@[simp] theorem enterSupervisor_regs (s : State) : (enterSupervisor s).regs = s.regs := rfl
@[simp] theorem enterSupervisor_ssp (s : State) : (enterSupervisor s).ssp = s.ssp := rfl
@[simp] theorem enterSupervisor_usp (s : State) : (enterSupervisor s).usp = s.usp := rfl
@[simp] theorem enterSupervisor_pc (s : State) : (enterSupervisor s).pc = s.pc := rfl
@[simp] theorem enterSupervisor_mode (s : State) :
    (enterSupervisor s).mode = .supervisor := rfl
@[simp] theorem enterSupervisor_flags (s : State) :
    (enterSupervisor s).flags = { s.flags with u := s.mode == .user, f := true } := rfl
@[simp] theorem enterSupervisor_sregs (s : State) : (enterSupervisor s).sregs = s.sregs := rfl
@[simp] theorem enterSupervisor_delay (s : State) : (enterSupervisor s).delay = s.delay := rfl
@[simp] theorem enterSupervisor_prefixAddr (s : State) : (enterSupervisor s).prefixAddr = s.prefixAddr := rfl
@[simp] theorem enterSupervisor_inhibit (s : State) : (enterSupervisor s).inhibit = s.inhibit := rfl
@[simp] theorem enterSupervisor_hwbreakPending (s : State) :
    (enterSupervisor s).hwbreakPending = s.hwbreakPending := rfl
@[simp] theorem enterSupervisor_prefetch (s : State) : (enterSupervisor s).prefetch = s.prefetch := rfl
@[simp] theorem enterSupervisor_hidden (s : State) : (enterSupervisor s).hidden = s.hidden := rfl
@[simp] theorem enterSupervisor_resume (s : State) : (enterSupervisor s).resume = s.resume := rfl
@[simp] theorem enterSupervisor_mmu (s : State) : (enterSupervisor s).mmu = s.mmu := rfl
@[simp] theorem enterSupervisor_mem (s : State) : (enterSupervisor s).mem = s.mem := rfl
@[simp] theorem enterSupervisor_stores (s : State) : (enterSupervisor s).stores = s.stores := rfl
@[simp] theorem enterSupervisor_physMap (s : State) : (enterSupervisor s).physMap = s.physMap := rfl
@[simp] theorem enterSupervisor_mmuMap (s : State) : (enterSupervisor s).mmuMap = s.mmuMap := rfl
@[simp] theorem enterSupervisor_layout (s : State) : (enterSupervisor s).layout = s.layout := rfl
@[simp] theorem enterSupervisor_irqs (s : State) : (enterSupervisor s).irqs = s.irqs := rfl
@[simp] theorem enterSupervisor_steps (s : State) : (enterSupervisor s).steps = s.steps := rfl
@[simp] theorem enterSupervisor_outside (s : State) : (enterSupervisor s).outside = s.outside := rfl
@[simp] theorem enterSupervisor_missCount (s : State) : (enterSupervisor s).missCount = s.missCount := rfl
@[simp] theorem enterSupervisor_freeCount (s : State) : (enterSupervisor s).freeCount = s.freeCount := rfl

/-! ## `noteSuppressed` -/

@[simp] theorem noteSuppressed_regs (s : State) : (noteSuppressed s).regs = s.regs := rfl
@[simp] theorem noteSuppressed_ssp (s : State) : (noteSuppressed s).ssp = s.ssp := rfl
@[simp] theorem noteSuppressed_usp (s : State) : (noteSuppressed s).usp = s.usp := rfl
@[simp] theorem noteSuppressed_pc (s : State) : (noteSuppressed s).pc = s.pc := rfl
@[simp] theorem noteSuppressed_mode (s : State) : (noteSuppressed s).mode = s.mode := rfl
@[simp] theorem noteSuppressed_flags (s : State) :
    (noteSuppressed s).flags = { s.flags with p := true } := rfl
@[simp] theorem noteSuppressed_sregs (s : State) : (noteSuppressed s).sregs = s.sregs := rfl
@[simp] theorem noteSuppressed_delay (s : State) : (noteSuppressed s).delay = s.delay := rfl
@[simp] theorem noteSuppressed_prefixAddr (s : State) : (noteSuppressed s).prefixAddr = s.prefixAddr := rfl
@[simp] theorem noteSuppressed_inhibit (s : State) : (noteSuppressed s).inhibit = s.inhibit := rfl
@[simp] theorem noteSuppressed_hwbreakPending (s : State) :
    (noteSuppressed s).hwbreakPending = s.hwbreakPending := rfl
@[simp] theorem noteSuppressed_prefetch (s : State) : (noteSuppressed s).prefetch = s.prefetch := rfl
@[simp] theorem noteSuppressed_hidden (s : State) : (noteSuppressed s).hidden = s.hidden := rfl
@[simp] theorem noteSuppressed_resume (s : State) : (noteSuppressed s).resume = s.resume := rfl
@[simp] theorem noteSuppressed_mmu (s : State) : (noteSuppressed s).mmu = s.mmu := rfl
@[simp] theorem noteSuppressed_mem (s : State) : (noteSuppressed s).mem = s.mem := rfl
@[simp] theorem noteSuppressed_stores (s : State) : (noteSuppressed s).stores = s.stores := rfl
@[simp] theorem noteSuppressed_physMap (s : State) : (noteSuppressed s).physMap = s.physMap := rfl
@[simp] theorem noteSuppressed_mmuMap (s : State) : (noteSuppressed s).mmuMap = s.mmuMap := rfl
@[simp] theorem noteSuppressed_layout (s : State) : (noteSuppressed s).layout = s.layout := rfl
@[simp] theorem noteSuppressed_irqs (s : State) : (noteSuppressed s).irqs = s.irqs := rfl
@[simp] theorem noteSuppressed_steps (s : State) : (noteSuppressed s).steps = s.steps := rfl
@[simp] theorem noteSuppressed_outside (s : State) : (noteSuppressed s).outside = s.outside := rfl
@[simp] theorem noteSuppressed_missCount (s : State) : (noteSuppressed s).missCount = s.missCount := rfl
@[simp] theorem noteSuppressed_freeCount (s : State) : (noteSuppressed s).freeCount = s.freeCount := rfl

/-! ## `restoreMode` -/

@[simp] theorem restoreMode_regs (r : StatusRecord) (s : State) : (restoreMode r s).regs = s.regs := rfl
@[simp] theorem restoreMode_ssp (r : StatusRecord) (s : State) : (restoreMode r s).ssp = s.ssp := rfl
@[simp] theorem restoreMode_usp (r : StatusRecord) (s : State) : (restoreMode r s).usp = s.usp := rfl
@[simp] theorem restoreMode_pc (r : StatusRecord) (s : State) : (restoreMode r s).pc = s.pc := rfl
@[simp] theorem restoreMode_mode (r : StatusRecord) (s : State) :
    (restoreMode r s).mode = if s.flags.u then .user else s.mode := rfl
@[simp] theorem restoreMode_flags (r : StatusRecord) (s : State) :
    (restoreMode r s).flags = { s.flags with x := r.state.getLsbD 6, u := r.state.getLsbD 7 } := rfl
@[simp] theorem restoreMode_sregs (r : StatusRecord) (s : State) : (restoreMode r s).sregs = s.sregs := rfl
@[simp] theorem restoreMode_delay (r : StatusRecord) (s : State) : (restoreMode r s).delay = s.delay := rfl
@[simp] theorem restoreMode_prefixAddr (r : StatusRecord) (s : State) :
    (restoreMode r s).prefixAddr = s.prefixAddr := rfl
@[simp] theorem restoreMode_inhibit (r : StatusRecord) (s : State) : (restoreMode r s).inhibit = s.inhibit := rfl
@[simp] theorem restoreMode_hwbreakPending (r : StatusRecord) (s : State) :
    (restoreMode r s).hwbreakPending = s.hwbreakPending := rfl
@[simp] theorem restoreMode_prefetch (r : StatusRecord) (s : State) : (restoreMode r s).prefetch = s.prefetch := rfl
@[simp] theorem restoreMode_hidden (r : StatusRecord) (s : State) : (restoreMode r s).hidden = s.hidden := rfl
@[simp] theorem restoreMode_resume (r : StatusRecord) (s : State) : (restoreMode r s).resume = s.resume := rfl
@[simp] theorem restoreMode_mmu (r : StatusRecord) (s : State) : (restoreMode r s).mmu = s.mmu := rfl
@[simp] theorem restoreMode_mem (r : StatusRecord) (s : State) : (restoreMode r s).mem = s.mem := rfl
@[simp] theorem restoreMode_stores (r : StatusRecord) (s : State) : (restoreMode r s).stores = s.stores := rfl
@[simp] theorem restoreMode_physMap (r : StatusRecord) (s : State) : (restoreMode r s).physMap = s.physMap := rfl
@[simp] theorem restoreMode_mmuMap (r : StatusRecord) (s : State) : (restoreMode r s).mmuMap = s.mmuMap := rfl
@[simp] theorem restoreMode_layout (r : StatusRecord) (s : State) : (restoreMode r s).layout = s.layout := rfl
@[simp] theorem restoreMode_irqs (r : StatusRecord) (s : State) : (restoreMode r s).irqs = s.irqs := rfl
@[simp] theorem restoreMode_steps (r : StatusRecord) (s : State) : (restoreMode r s).steps = s.steps := rfl
@[simp] theorem restoreMode_outside (r : StatusRecord) (s : State) : (restoreMode r s).outside = s.outside := rfl
@[simp] theorem restoreMode_missCount (r : StatusRecord) (s : State) :
    (restoreMode r s).missCount = s.missCount := rfl
@[simp] theorem restoreMode_freeCount (r : StatusRecord) (s : State) :
    (restoreMode r s).freeCount = s.freeCount := rfl

/-! ## `withFlags` -/

@[simp] theorem withFlags_regs (f : Flags) (s : State) : (withFlags f s).regs = s.regs := rfl
@[simp] theorem withFlags_ssp (f : Flags) (s : State) : (withFlags f s).ssp = s.ssp := rfl
@[simp] theorem withFlags_usp (f : Flags) (s : State) : (withFlags f s).usp = s.usp := rfl
@[simp] theorem withFlags_pc (f : Flags) (s : State) : (withFlags f s).pc = s.pc := rfl
@[simp] theorem withFlags_mode (f : Flags) (s : State) : (withFlags f s).mode = s.mode := rfl
@[simp] theorem withFlags_flags (f : Flags) (s : State) :
    (withFlags f s).flags = f := rfl
@[simp] theorem withFlags_sregs (f : Flags) (s : State) : (withFlags f s).sregs = s.sregs := rfl
@[simp] theorem withFlags_delay (f : Flags) (s : State) : (withFlags f s).delay = s.delay := rfl
@[simp] theorem withFlags_prefixAddr (f : Flags) (s : State) : (withFlags f s).prefixAddr = s.prefixAddr := rfl
@[simp] theorem withFlags_inhibit (f : Flags) (s : State) : (withFlags f s).inhibit = s.inhibit := rfl
@[simp] theorem withFlags_hwbreakPending (f : Flags) (s : State) :
    (withFlags f s).hwbreakPending = s.hwbreakPending := rfl
@[simp] theorem withFlags_prefetch (f : Flags) (s : State) : (withFlags f s).prefetch = s.prefetch := rfl
@[simp] theorem withFlags_hidden (f : Flags) (s : State) : (withFlags f s).hidden = s.hidden := rfl
@[simp] theorem withFlags_resume (f : Flags) (s : State) : (withFlags f s).resume = s.resume := rfl
@[simp] theorem withFlags_mmu (f : Flags) (s : State) : (withFlags f s).mmu = s.mmu := rfl
@[simp] theorem withFlags_mem (f : Flags) (s : State) : (withFlags f s).mem = s.mem := rfl
@[simp] theorem withFlags_stores (f : Flags) (s : State) : (withFlags f s).stores = s.stores := rfl
@[simp] theorem withFlags_physMap (f : Flags) (s : State) : (withFlags f s).physMap = s.physMap := rfl
@[simp] theorem withFlags_mmuMap (f : Flags) (s : State) : (withFlags f s).mmuMap = s.mmuMap := rfl
@[simp] theorem withFlags_layout (f : Flags) (s : State) : (withFlags f s).layout = s.layout := rfl
@[simp] theorem withFlags_irqs (f : Flags) (s : State) : (withFlags f s).irqs = s.irqs := rfl
@[simp] theorem withFlags_steps (f : Flags) (s : State) : (withFlags f s).steps = s.steps := rfl
@[simp] theorem withFlags_outside (f : Flags) (s : State) : (withFlags f s).outside = s.outside := rfl
@[simp] theorem withFlags_missCount (f : Flags) (s : State) : (withFlags f s).missCount = s.missCount := rfl
@[simp] theorem withFlags_freeCount (f : Flags) (s : State) : (withFlags f s).freeCount = s.freeCount := rfl

/-! ## `jumped` -/

@[simp] theorem jumped_regs (t : Word) (w : Bool) (s : State) : (jumped t w s).regs = s.regs := rfl
@[simp] theorem jumped_ssp (t : Word) (w : Bool) (s : State) : (jumped t w s).ssp = s.ssp := rfl
@[simp] theorem jumped_usp (t : Word) (w : Bool) (s : State) : (jumped t w s).usp = s.usp := rfl
@[simp] theorem jumped_pc (t : Word) (w : Bool) (s : State) :
    (jumped t w s).pc = t := rfl
@[simp] theorem jumped_mode (t : Word) (w : Bool) (s : State) : (jumped t w s).mode = s.mode := rfl
@[simp] theorem jumped_flags (t : Word) (w : Bool) (s : State) :
    (jumped t w s).flags = { s.flags with x := false } := rfl
@[simp] theorem jumped_sregs (t : Word) (w : Bool) (s : State) : (jumped t w s).sregs = s.sregs := rfl
@[simp] theorem jumped_delay (t : Word) (w : Bool) (s : State) : (jumped t w s).delay = s.delay := rfl
@[simp] theorem jumped_prefixAddr (t : Word) (w : Bool) (s : State) :
    (jumped t w s).prefixAddr = none := rfl
@[simp] theorem jumped_inhibit (t : Word) (w : Bool) (s : State) :
    (jumped t w s).inhibit = w := rfl
@[simp] theorem jumped_hwbreakPending (t : Word) (w : Bool) (s : State) :
    (jumped t w s).hwbreakPending = s.hwbreakPending := rfl
@[simp] theorem jumped_prefetch (t : Word) (w : Bool) (s : State) :
    (jumped t w s).prefetch = none := rfl
@[simp] theorem jumped_hidden (t : Word) (w : Bool) (s : State) : (jumped t w s).hidden = s.hidden := rfl
@[simp] theorem jumped_resume (t : Word) (w : Bool) (s : State) :
    (jumped t w s).resume = none := rfl
@[simp] theorem jumped_mmu (t : Word) (w : Bool) (s : State) : (jumped t w s).mmu = s.mmu := rfl
@[simp] theorem jumped_mem (t : Word) (w : Bool) (s : State) : (jumped t w s).mem = s.mem := rfl
@[simp] theorem jumped_stores (t : Word) (w : Bool) (s : State) :
    (jumped t w s).stores = { s.stores with fresh := [] } := rfl
@[simp] theorem jumped_physMap (t : Word) (w : Bool) (s : State) : (jumped t w s).physMap = s.physMap := rfl
@[simp] theorem jumped_mmuMap (t : Word) (w : Bool) (s : State) : (jumped t w s).mmuMap = s.mmuMap := rfl
@[simp] theorem jumped_layout (t : Word) (w : Bool) (s : State) : (jumped t w s).layout = s.layout := rfl
@[simp] theorem jumped_irqs (t : Word) (w : Bool) (s : State) : (jumped t w s).irqs = s.irqs := rfl
@[simp] theorem jumped_steps (t : Word) (w : Bool) (s : State) : (jumped t w s).steps = s.steps := rfl
@[simp] theorem jumped_outside (t : Word) (w : Bool) (s : State) : (jumped t w s).outside = s.outside := rfl
@[simp] theorem jumped_missCount (t : Word) (w : Bool) (s : State) : (jumped t w s).missCount = s.missCount := rfl
@[simp] theorem jumped_freeCount (t : Word) (w : Bool) (s : State) : (jumped t w s).freeCount = s.freeCount := rfl

/-! ## `delayedTo` -/

@[simp] theorem delayedTo_regs (q t : Word) (m : Bool) (s : State) : (delayedTo q t m s).regs = s.regs := rfl
@[simp] theorem delayedTo_ssp (q t : Word) (m : Bool) (s : State) : (delayedTo q t m s).ssp = s.ssp := rfl
@[simp] theorem delayedTo_usp (q t : Word) (m : Bool) (s : State) : (delayedTo q t m s).usp = s.usp := rfl
@[simp] theorem delayedTo_pc (q t : Word) (m : Bool) (s : State) :
    (delayedTo q t m s).pc = q := rfl
@[simp] theorem delayedTo_mode (q t : Word) (m : Bool) (s : State) : (delayedTo q t m s).mode = s.mode := rfl
@[simp] theorem delayedTo_flags (q t : Word) (m : Bool) (s : State) :
    (delayedTo q t m s).flags = { s.flags with x := false } := rfl
@[simp] theorem delayedTo_sregs (q t : Word) (m : Bool) (s : State) : (delayedTo q t m s).sregs = s.sregs := rfl
@[simp] theorem delayedTo_delay (q t : Word) (m : Bool) (s : State) :
    (delayedTo q t m s).delay = some { target := t, ret := m } := rfl
@[simp] theorem delayedTo_prefixAddr (q t : Word) (m : Bool) (s : State) :
    (delayedTo q t m s).prefixAddr = none := rfl
@[simp] theorem delayedTo_inhibit (q t : Word) (m : Bool) (s : State) :
    (delayedTo q t m s).inhibit = true := rfl
@[simp] theorem delayedTo_hwbreakPending (q t : Word) (m : Bool) (s : State) :
    (delayedTo q t m s).hwbreakPending = s.hwbreakPending := rfl
@[simp] theorem delayedTo_prefetch (q t : Word) (m : Bool) (s : State) :
    (delayedTo q t m s).prefetch = s.prefetch := rfl
@[simp] theorem delayedTo_hidden (q t : Word) (m : Bool) (s : State) : (delayedTo q t m s).hidden = s.hidden := rfl
@[simp] theorem delayedTo_resume (q t : Word) (m : Bool) (s : State) :
    (delayedTo q t m s).resume = none := rfl
@[simp] theorem delayedTo_mmu (q t : Word) (m : Bool) (s : State) : (delayedTo q t m s).mmu = s.mmu := rfl
@[simp] theorem delayedTo_mem (q t : Word) (m : Bool) (s : State) : (delayedTo q t m s).mem = s.mem := rfl
@[simp] theorem delayedTo_stores (q t : Word) (m : Bool) (s : State) : (delayedTo q t m s).stores = s.stores := rfl
@[simp] theorem delayedTo_physMap (q t : Word) (m : Bool) (s : State) : (delayedTo q t m s).physMap = s.physMap := rfl
@[simp] theorem delayedTo_mmuMap (q t : Word) (m : Bool) (s : State) : (delayedTo q t m s).mmuMap = s.mmuMap := rfl
@[simp] theorem delayedTo_layout (q t : Word) (m : Bool) (s : State) : (delayedTo q t m s).layout = s.layout := rfl
@[simp] theorem delayedTo_irqs (q t : Word) (m : Bool) (s : State) : (delayedTo q t m s).irqs = s.irqs := rfl
@[simp] theorem delayedTo_steps (q t : Word) (m : Bool) (s : State) : (delayedTo q t m s).steps = s.steps := rfl
@[simp] theorem delayedTo_outside (q t : Word) (m : Bool) (s : State) : (delayedTo q t m s).outside = s.outside := rfl
@[simp] theorem delayedTo_missCount (q t : Word) (m : Bool) (s : State) :
    (delayedTo q t m s).missCount = s.missCount := rfl
@[simp] theorem delayedTo_freeCount (q t : Word) (m : Bool) (s : State) :
    (delayedTo q t m s).freeCount = s.freeCount := rfl

/-! ## `noteBreakpoint` -/

@[simp] theorem noteBreakpoint_regs (a : Word) (s : State) : (noteBreakpoint a s).regs = s.regs := by
  unfold noteBreakpoint; split <;> rfl
@[simp] theorem noteBreakpoint_ssp (a : Word) (s : State) : (noteBreakpoint a s).ssp = s.ssp := by
  unfold noteBreakpoint; split <;> rfl
@[simp] theorem noteBreakpoint_usp (a : Word) (s : State) : (noteBreakpoint a s).usp = s.usp := by
  unfold noteBreakpoint; split <;> rfl
@[simp] theorem noteBreakpoint_pc (a : Word) (s : State) : (noteBreakpoint a s).pc = s.pc := by
  unfold noteBreakpoint; split <;> rfl
@[simp] theorem noteBreakpoint_mode (a : Word) (s : State) : (noteBreakpoint a s).mode = s.mode := by
  unfold noteBreakpoint; split <;> rfl
@[simp] theorem noteBreakpoint_flags (a : Word) (s : State) : (noteBreakpoint a s).flags = s.flags := by
  unfold noteBreakpoint; split <;> rfl
@[simp] theorem noteBreakpoint_sregs (a : Word) (s : State) : (noteBreakpoint a s).sregs = s.sregs := by
  unfold noteBreakpoint; split <;> rfl
@[simp] theorem noteBreakpoint_delay (a : Word) (s : State) : (noteBreakpoint a s).delay = s.delay := by
  unfold noteBreakpoint; split <;> rfl
@[simp] theorem noteBreakpoint_prefixAddr (a : Word) (s : State) :
    (noteBreakpoint a s).prefixAddr = s.prefixAddr := by
  unfold noteBreakpoint; split <;> rfl
@[simp] theorem noteBreakpoint_inhibit (a : Word) (s : State) : (noteBreakpoint a s).inhibit = s.inhibit := by
  unfold noteBreakpoint; split <;> rfl
@[simp] theorem noteBreakpoint_prefetch (a : Word) (s : State) : (noteBreakpoint a s).prefetch = s.prefetch := by
  unfold noteBreakpoint; split <;> rfl
@[simp] theorem noteBreakpoint_hidden (a : Word) (s : State) : (noteBreakpoint a s).hidden = s.hidden := by
  unfold noteBreakpoint; split <;> rfl
@[simp] theorem noteBreakpoint_resume (a : Word) (s : State) : (noteBreakpoint a s).resume = s.resume := by
  unfold noteBreakpoint; split <;> rfl
@[simp] theorem noteBreakpoint_mmu (a : Word) (s : State) : (noteBreakpoint a s).mmu = s.mmu := by
  unfold noteBreakpoint; split <;> rfl
@[simp] theorem noteBreakpoint_mem (a : Word) (s : State) : (noteBreakpoint a s).mem = s.mem := by
  unfold noteBreakpoint; split <;> rfl
@[simp] theorem noteBreakpoint_stores (a : Word) (s : State) : (noteBreakpoint a s).stores = s.stores := by
  unfold noteBreakpoint; split <;> rfl
@[simp] theorem noteBreakpoint_physMap (a : Word) (s : State) : (noteBreakpoint a s).physMap = s.physMap := by
  unfold noteBreakpoint; split <;> rfl
@[simp] theorem noteBreakpoint_mmuMap (a : Word) (s : State) : (noteBreakpoint a s).mmuMap = s.mmuMap := by
  unfold noteBreakpoint; split <;> rfl
@[simp] theorem noteBreakpoint_layout (a : Word) (s : State) : (noteBreakpoint a s).layout = s.layout := by
  unfold noteBreakpoint; split <;> rfl
@[simp] theorem noteBreakpoint_irqs (a : Word) (s : State) : (noteBreakpoint a s).irqs = s.irqs := by
  unfold noteBreakpoint; split <;> rfl
@[simp] theorem noteBreakpoint_steps (a : Word) (s : State) : (noteBreakpoint a s).steps = s.steps := by
  unfold noteBreakpoint; split <;> rfl
@[simp] theorem noteBreakpoint_outside (a : Word) (s : State) : (noteBreakpoint a s).outside = s.outside := by
  unfold noteBreakpoint; split <;> rfl
@[simp] theorem noteBreakpoint_missCount (a : Word) (s : State) : (noteBreakpoint a s).missCount = s.missCount := by
  unfold noteBreakpoint; split <;> rfl
@[simp] theorem noteBreakpoint_freeCount (a : Word) (s : State) : (noteBreakpoint a s).freeCount = s.freeCount := by
  unfold noteBreakpoint; split <;> rfl

/-! ## `popOutside` -/

@[simp] theorem popOutside_regs (s : State) : (popOutside s).regs = s.regs := by
  unfold popOutside; split <;> rfl
@[simp] theorem popOutside_ssp (s : State) : (popOutside s).ssp = s.ssp := by
  unfold popOutside; split <;> rfl
@[simp] theorem popOutside_usp (s : State) : (popOutside s).usp = s.usp := by
  unfold popOutside; split <;> rfl
@[simp] theorem popOutside_pc (s : State) : (popOutside s).pc = s.pc := by
  unfold popOutside; split <;> rfl
@[simp] theorem popOutside_mode (s : State) : (popOutside s).mode = s.mode := by
  unfold popOutside; split <;> rfl
@[simp] theorem popOutside_flags (s : State) : (popOutside s).flags = s.flags := by
  unfold popOutside; split <;> rfl
@[simp] theorem popOutside_sregs (s : State) : (popOutside s).sregs = s.sregs := by
  unfold popOutside; split <;> rfl
@[simp] theorem popOutside_delay (s : State) : (popOutside s).delay = s.delay := by
  unfold popOutside; split <;> rfl
@[simp] theorem popOutside_prefixAddr (s : State) : (popOutside s).prefixAddr = s.prefixAddr := by
  unfold popOutside; split <;> rfl
@[simp] theorem popOutside_inhibit (s : State) : (popOutside s).inhibit = s.inhibit := by
  unfold popOutside; split <;> rfl
@[simp] theorem popOutside_hwbreakPending (s : State) : (popOutside s).hwbreakPending = s.hwbreakPending := by
  unfold popOutside; split <;> rfl
@[simp] theorem popOutside_prefetch (s : State) : (popOutside s).prefetch = s.prefetch := by
  unfold popOutside; split <;> rfl
@[simp] theorem popOutside_hidden (s : State) : (popOutside s).hidden = s.hidden := by
  unfold popOutside; split <;> rfl
@[simp] theorem popOutside_resume (s : State) : (popOutside s).resume = s.resume := by
  unfold popOutside; split <;> rfl
@[simp] theorem popOutside_mmu (s : State) : (popOutside s).mmu = s.mmu := by
  unfold popOutside; split <;> rfl
@[simp] theorem popOutside_stores (s : State) : (popOutside s).stores = s.stores := by
  unfold popOutside; split <;> rfl
@[simp] theorem popOutside_physMap (s : State) : (popOutside s).physMap = s.physMap := by
  unfold popOutside; split <;> rfl
@[simp] theorem popOutside_mmuMap (s : State) : (popOutside s).mmuMap = s.mmuMap := by
  unfold popOutside; split <;> rfl
@[simp] theorem popOutside_layout (s : State) : (popOutside s).layout = s.layout := by
  unfold popOutside; split <;> rfl
@[simp] theorem popOutside_irqs (s : State) : (popOutside s).irqs = s.irqs := by
  unfold popOutside; split <;> rfl
@[simp] theorem popOutside_steps (s : State) : (popOutside s).steps = s.steps := by
  unfold popOutside; split <;> rfl
@[simp] theorem popOutside_missCount (s : State) : (popOutside s).missCount = s.missCount := by
  unfold popOutside; split <;> rfl
@[simp] theorem popOutside_freeCount (s : State) : (popOutside s).freeCount = s.freeCount := by
  unfold popOutside; split <;> rfl

/-! ## `writeReg` -/

@[simp] theorem writeReg_pc (r : RegNo) (v : Word) (s : State) : (writeReg r v s).pc = s.pc := by
  unfold writeReg; split <;> (try split) <;> (try split) <;> rfl
@[simp] theorem writeReg_mode (r : RegNo) (v : Word) (s : State) : (writeReg r v s).mode = s.mode := by
  unfold writeReg; split <;> (try split) <;> (try split) <;> rfl
@[simp] theorem writeReg_flags (r : RegNo) (v : Word) (s : State) : (writeReg r v s).flags = s.flags := by
  unfold writeReg; split <;> (try split) <;> (try split) <;> rfl
@[simp] theorem writeReg_sregs (r : RegNo) (v : Word) (s : State) : (writeReg r v s).sregs = s.sregs := by
  unfold writeReg; split <;> (try split) <;> (try split) <;> rfl
@[simp] theorem writeReg_delay (r : RegNo) (v : Word) (s : State) : (writeReg r v s).delay = s.delay := by
  unfold writeReg; split <;> (try split) <;> (try split) <;> rfl
@[simp] theorem writeReg_prefixAddr (r : RegNo) (v : Word) (s : State) :
    (writeReg r v s).prefixAddr = s.prefixAddr := by
  unfold writeReg; split <;> (try split) <;> (try split) <;> rfl
@[simp] theorem writeReg_inhibit (r : RegNo) (v : Word) (s : State) : (writeReg r v s).inhibit = s.inhibit := by
  unfold writeReg; split <;> (try split) <;> (try split) <;> rfl
@[simp] theorem writeReg_hwbreakPending (r : RegNo) (v : Word) (s : State) :
    (writeReg r v s).hwbreakPending = s.hwbreakPending := by
  unfold writeReg; split <;> (try split) <;> (try split) <;> rfl
@[simp] theorem writeReg_prefetch (r : RegNo) (v : Word) (s : State) : (writeReg r v s).prefetch = s.prefetch := by
  unfold writeReg; split <;> (try split) <;> (try split) <;> rfl
@[simp] theorem writeReg_hidden (r : RegNo) (v : Word) (s : State) : (writeReg r v s).hidden = s.hidden := by
  unfold writeReg; split <;> (try split) <;> (try split) <;> rfl
@[simp] theorem writeReg_resume (r : RegNo) (v : Word) (s : State) : (writeReg r v s).resume = s.resume := by
  unfold writeReg; split <;> (try split) <;> (try split) <;> rfl
@[simp] theorem writeReg_mmu (r : RegNo) (v : Word) (s : State) : (writeReg r v s).mmu = s.mmu := by
  unfold writeReg; split <;> (try split) <;> (try split) <;> rfl
@[simp] theorem writeReg_mem (r : RegNo) (v : Word) (s : State) : (writeReg r v s).mem = s.mem := by
  unfold writeReg; split <;> (try split) <;> (try split) <;> rfl
@[simp] theorem writeReg_stores (r : RegNo) (v : Word) (s : State) : (writeReg r v s).stores = s.stores := by
  unfold writeReg; split <;> (try split) <;> (try split) <;> rfl
@[simp] theorem writeReg_physMap (r : RegNo) (v : Word) (s : State) : (writeReg r v s).physMap = s.physMap := by
  unfold writeReg; split <;> (try split) <;> (try split) <;> rfl
@[simp] theorem writeReg_mmuMap (r : RegNo) (v : Word) (s : State) : (writeReg r v s).mmuMap = s.mmuMap := by
  unfold writeReg; split <;> (try split) <;> (try split) <;> rfl
@[simp] theorem writeReg_layout (r : RegNo) (v : Word) (s : State) : (writeReg r v s).layout = s.layout := by
  unfold writeReg; split <;> (try split) <;> (try split) <;> rfl
@[simp] theorem writeReg_irqs (r : RegNo) (v : Word) (s : State) : (writeReg r v s).irqs = s.irqs := by
  unfold writeReg; split <;> (try split) <;> (try split) <;> rfl
@[simp] theorem writeReg_steps (r : RegNo) (v : Word) (s : State) : (writeReg r v s).steps = s.steps := by
  unfold writeReg; split <;> (try split) <;> (try split) <;> rfl
@[simp] theorem writeReg_outside (r : RegNo) (v : Word) (s : State) : (writeReg r v s).outside = s.outside := by
  unfold writeReg; split <;> (try split) <;> (try split) <;> rfl
@[simp] theorem writeReg_missCount (r : RegNo) (v : Word) (s : State) : (writeReg r v s).missCount = s.missCount := by
  unfold writeReg; split <;> (try split) <;> (try split) <;> rfl
@[simp] theorem writeReg_freeCount (r : RegNo) (v : Word) (s : State) : (writeReg r v s).freeCount = s.freeCount := by
  unfold writeReg; split <;> (try split) <;> (try split) <;> rfl

end Sys2Proof.Laws
end

