-- ==== Sys2Proof/Laws/Ops.lean ====
section
/-! SUPPORT. Sys2Proof/Laws/Ops.lean: what the shared operations answer when nothing stands in their way: registers, bus
cycles, data accesses and the end of an instruction. -/

namespace Sys2Proof.Laws

open Sys2Proof.Machine

/-! ## Registers -/

theorem readReg_writeReg_same {r : RegNo} (hr : r ≠ 15#4) (v : Word) (s : State) : readReg r (writeReg r v s) = v := by
  unfold readReg writeReg
  by_cases h : r.toNat < 14
  · simp [h]
  · have h14 : r = 14#4 := by
      have := r.isLt
      apply BitVec.eq_of_toNat_eq
      have h15 : r.toNat ≠ 15 := fun h' => hr (BitVec.eq_of_toNat_eq (by simpa using h'))
      simp
      omega
    subst h14
    by_cases hm : s.mode = .user <;> simp [hm, activeSp]

theorem readReg_writeReg_other {r q : RegNo} (h : q ≠ r) (v : Word) (s : State) :
    readReg q (writeReg r v s) = readReg q s := by
  have hn : q.toNat ≠ r.toNat := fun h' => h (BitVec.eq_of_toNat_eq h')
  unfold readReg writeReg
  by_cases hr : r.toNat < 14
  · simp only [hr, dif_pos]
    split
    · simp [Ne.symm hn]
    · simp [activeSp, pcPlus2]
  · by_cases h14 : r = 14#4
    · subst h14
      simp only [hr, dif_neg, not_false_eq_true, if_true]
      by_cases hm : s.mode = .user <;> simp [hm, h, pcPlus2]
    · simp [hr, h14]

/-- A write to PC through `writeReg` changes nothing: it is a transfer of control. -/
theorem writeReg_to_pc (v : Word) (s : State) : writeReg 15#4 v s = s := by
  simp [writeReg]

/-! ## Bus cycles with the MMU off -/

theorem translate_plain {s : State} (h : Plain s) (va : Word) (write : Bool) : Machine.translate va write s = .ok va s := by
  simp [Machine.translate, h.mmuOff, h.testOff]

theorem plain_note {s : State} (h : Plain s) (a : Word) : Plain (noteBreakpoint a s) :=
  ⟨by simpa using h.mmuOff, by simpa using h.testOff, by simpa using h.noSingleStep, by simpa using h.noWindows,
    by simpa using h.noOutside⟩

theorem exactWindow_plain {s : State} (h : Plain s) (pa : Word) (n : Nat) : exactWindow s pa n = none := by
  simp [exactWindow, h.noWindows]

theorem touchesWindow_plain {s : State} (h : Plain s) (pa : Word) (n : Nat) : touchesWindow s pa n = false := by
  simp [touchesWindow, h.noWindows]

theorem accessRefusal_readable {s : State} {pa : Word} : ∀ {n}, Readable s pa n → accessRefusal s false pa n = none
  | 0, _ => rfl
  | n + 1, h => by
    obtain ⟨k, hk⟩ := Option.isSome_iff_exists.1 (h n (Nat.lt_succ_self n))
    have ih : accessRefusal s false pa n = none := accessRefusal_readable fun i hi => h i (by omega)
    cases k <;> simp [accessRefusal, hk, ih]

theorem accessRefusal_writable {s : State} {pa : Word} : ∀ {n}, Writable s pa n → accessRefusal s true pa n = none
  | 0, _ => rfl
  | n + 1, h => by
    have ih : accessRefusal s true pa n = none := accessRefusal_writable fun i hi => h i (by omega)
    simp [accessRefusal, h n (Nat.lt_succ_self n), ih]

theorem popStep_plain {s : State} (h : Plain s) : popStep s = (false, s) := by
  simp [popStep, h.noSingleStep]

theorem popOutside_plain {s : State} (h : Plain s) : popOutside s = s := by
  simp [popOutside, h.noOutside]

/-- A read cycle with nothing in its way. -/
theorem busCycle_read_plain {s : State} {a : Word} {n : Nat} (h : Plain s) (hr : Readable s a n) :
    busCycle none a n s = .ok (loadBytes s.mem a n) a (noteBreakpoint a s) := by
  have hr' : Readable (noteBreakpoint a s) a n := fun i hi => by simpa [regionKind] using hr i hi
  simp [busCycle, popOutside_plain (plain_note h a), popStep_plain (plain_note h a),
    translate_plain (plain_note h a), physRead, exactWindow_plain (plain_note h a),
    touchesWindow_plain (plain_note h a), accessRefusal_readable hr']

/-- A write cycle with nothing in its way. -/
theorem busCycle_write_plain {s : State} {a : Word} {n : Nat} (v : Word) (h : Plain s) (hw : Writable s a n) :
    busCycle (some v) a n s = .ok 0#32 a
      { noteBreakpoint a s with mem := storeBytes s.mem a (lowBytes n v) n, stores := noteStore s.stores a n } := by
  have hw' : Writable (noteBreakpoint a s) a n := fun i hi => by simpa [regionKind] using hw i hi
  simp [busCycle, popOutside_plain (plain_note h a), popStep_plain (plain_note h a),
    translate_plain (plain_note h a), physWrite, exactWindow_plain (plain_note h a),
    touchesWindow_plain (plain_note h a), accessRefusal_writable hw']

/-! ## What a read may change -/

theorem readOnly_refl (b : Bool) (s : State) : ReadOnly b s s := ⟨rfl, fun _ => rfl, fun _ => rfl⟩

theorem readOnly_trans {b : Bool} {s t u : State} (h : ReadOnly b s t) (h' : ReadOnly b t u) : ReadOnly b s u := by
  obtain ⟨e, p, q⟩ := h
  obtain ⟨e', p', q'⟩ := h'
  refine ⟨?_, fun hb => (p' hb).trans (p hb), fun hb => ?_⟩
  · rw [e']
    simp only
    rw [e]
  · have : t.flags.b = false := by rw [e]; exact hb
    exact (q' this).trans (q hb)

theorem noteBreakpoint_readOnly (b : Bool) (a : Word) (s : State) : ReadOnly b s (noteBreakpoint a s) := by
  unfold noteBreakpoint
  split
  · next h => exact ⟨rfl, fun _ => rfl, fun hb => by simp [hb] at h⟩
  · exact readOnly_refl b s

/-- The BAR comparison changes the latched hit only, and only if B is set. -/
theorem noteBreakpoint_form (a : Word) (s : State) :
    ∃ p, noteBreakpoint a s = { s with hwbreakPending := p } ∧ (s.flags.b = false → p = s.hwbreakPending) := by
  unfold noteBreakpoint
  split
  · next h => exact ⟨true, rfl, fun hb => by simp [hb] at h⟩
  · exact ⟨s.hwbreakPending, rfl, fun _ => rfl⟩

theorem readOnly_plain {b : Bool} {s t : State} (h : ReadOnly b s t) (hp : Plain s) : Plain t := by
  rw [h.1]
  exact ⟨hp.mmuOff, hp.testOff, hp.noSingleStep, hp.noWindows, hp.noOutside⟩

theorem readOnly_readable {b : Bool} {s t : State} (h : ReadOnly b s t) {a : Word} {n : Nat} (hr : Readable s a n) :
    Readable t a n := by
  rw [h.1]
  exact hr

/-! ## Data accesses with the MMU off -/

theorem crosses_iff {a : Word} {n : Nat} : crosses a n = true ↔ firstPart a < n := by
  simp only [crosses, decide_eq_true_eq, firstPart]
  omega

theorem loadBytes_lt (m : List Host.Cell) (a : Word) : ∀ n, n ≤ 4 → (loadBytes m a n).toNat < 2 ^ (8 * n)
  | 0, _ => by simp [loadBytes]
  | n + 1, h => by
    have ih := loadBytes_lt m a n (by omega)
    have hb := (memRead m (physIndex a n)).isLt
    rw [loadBytes, BitVec.toNat_or, BitVec.toNat_shiftLeft, BitVec.toNat_setWidth]
    refine Nat.or_lt_two_pow (Nat.lt_of_lt_of_le ih (Nat.pow_le_pow_right (by decide) (by omega))) ?_
    refine Nat.lt_of_le_of_lt (Nat.mod_le _ _) ?_
    rw [Nat.mod_eq_of_lt (by omega), Nat.shiftLeft_eq, show 8 * (n + 1) = 8 + 8 * n by omega, Nat.pow_add]
    exact Nat.mul_lt_mul_of_pos_right (by omega) (Nat.two_pow_pos _)

/-- The bytes of a datum in two parts are the datum (20_memory.md R73). -/
theorem loadBytes_split (m : List Host.Cell) (a : Word) (k : Nat) :
    ∀ j, loadBytes m a k ||| (loadBytes m (a + BitVec.ofNat 32 k) j <<< (8 * k)) = loadBytes m a (k + j)
  | 0 => by simp [loadBytes]
  | j + 1 => by
    rw [← Nat.add_assoc, loadBytes, loadBytes, ← loadBytes_split m a k j, physIndex_add, BitVec.shiftLeft_or_distrib,
      BitVec.or_assoc, ← BitVec.shiftLeft_add, show 8 * j + 8 * k = 8 * (k + j) by omega]

/-- A data read that nothing stands in the way of answers the bytes of the datum, lowest address first. -/
theorem dataRead_plain (c : Ctx) {s : State} {a : Word} {n : Nat} (h : Plain s) (hr : Readable s a n) :
    ∃ s', ReadOnly false s s' ∧ dataRead c none a n s = .done (loadBytes s.mem a n) s' := by
  unfold dataRead
  split
  · next hc =>
    have hk : firstPart a < n := crosses_iff.1 hc
    have h1 : Readable s a (firstPart a) := fun i hi => hr i (by omega)
    have h2 : Readable (noteBreakpoint a s) (a + BitVec.ofNat 32 (firstPart a)) (n - firstPart a) := fun i hi => by
      rw [physIndex_add]
      simpa [regionKind] using hr (firstPart a + i) (by omega)
    refine ⟨noteBreakpoint (a + BitVec.ofNat 32 (firstPart a)) (noteBreakpoint a s),
      readOnly_trans (noteBreakpoint_readOnly _ _ _) (noteBreakpoint_readOnly _ _ _), ?_⟩
    simp only [readCycle, busCycle_read_plain h h1, Act.andThen, readSecond, busCycle_read_plain (plain_note h a) h2]
    rw [noteBreakpoint_mem, loadBytes_split, show firstPart a + (n - firstPart a) = n by omega]
  · exact ⟨noteBreakpoint a s, noteBreakpoint_readOnly _ _ _, by simp [readCycle, busCycle_read_plain h hr]⟩

theorem lowBytes_byte (v : Word) {n i : Nat} (hi : i < n) (hn : n ≤ 4) :
    (lowBytes n v).extractLsb' (8 * i) 8 = v.extractLsb' (8 * i) 8 := by
  ext j hj
  simp only [lowBytes, BitVec.getElem_extractLsb', BitVec.getLsbD_and, BitVec.getLsbD_ushiftRight,
    BitVec.getLsbD_allOnes]
  have : 32 - 8 * n + (8 * i + j) < 32 := by omega
  simp [this]

theorem markBytes_contains (l : List Nat) (pa : Word) {i : Nat} :
    ∀ n, i < n → (markBytes l pa n).contains (physIndex pa i) = true
  | n + 1, hi => by
    simp only [markBytes]
    rcases Nat.lt_or_ge i n with h | h
    · split
      · exact markBytes_contains l pa n h
      · have := markBytes_contains l pa n h
        simp only [List.contains_cons, this, Bool.or_true]
    · have : i = n := by omega
      subst this
      split
      · assumption
      · simp

theorem markBytes_keeps {l : List Nat} (pa : Word) {x : Nat} (h : l.contains x = true) :
    ∀ n, (markBytes l pa n).contains x = true
  | 0 => h
  | n + 1 => by
    simp only [markBytes]
    split
    · exact markBytes_keeps pa h n
    · simp only [List.contains_cons, markBytes_keeps pa h n, Bool.or_true]

theorem noteStore_fresh (st : Stores) (pa : Word) (n : Nat) : (noteStore st pa n).fresh = markBytes st.fresh pa n := by
  unfold noteStore
  split <;> rfl

/-- A store in two parts is a store of the whole datum. -/
theorem storedAt_two_parts {m : List Host.Cell} (h : memWf m = true) (a v : Word) {k n : Nat} (hk : k < n) (hn : n ≤ 4) :
    StoredAt a n v m
      (storeBytes (storeBytes m a (lowBytes k v) k) (a + BitVec.ofNat 32 k) (lowBytes (n - k) (v >>> (8 * k))) (n - k)) := by
  have hw := storeBytes_keeps_wf a (lowBytes k v) h k
  have hbig : ∀ {x : Nat}, x ≤ 4 → x < physSize := fun hx => Nat.lt_of_le_of_lt hx (by decide)
  constructor
  · intro i hi
    rcases Nat.lt_or_ge i k with hik | hik
    · rw [memRead_storeBytes_other hw]
      · rw [memRead_storeBytes_at h _ _ _ (hbig (by omega)) hik, lowBytes_byte v hik (by omega)]
      · intro j hj he
        rw [physIndex_add] at he
        have := physIndex_injective (hbig (by omega)) (hbig (by omega)) he
        omega
    · rw [show physIndex a i = physIndex (a + BitVec.ofNat 32 k) (i - k) by
        rw [physIndex_add, show k + (i - k) = i by omega]]
      rw [memRead_storeBytes_at hw _ _ _ (hbig (by omega)) (by omega), lowBytes_byte _ (by omega) (by omega)]
      ext j hj
      simp [BitVec.getElem_extractLsb', BitVec.getLsbD_ushiftRight]
      congr 1
      omega
  · intro x hx
    rw [memRead_storeBytes_other hw, memRead_storeBytes_other h]
    · exact fun i hi => hx i (by omega)
    · intro i hi
      rw [physIndex_add]
      exact hx _ (by omega)

/-- A write cycle with nothing in its way, as an update of the state. -/
def CycleWrote (a : Word) (n : Nat) (v : Word) (s s' : State) : Prop :=
  s' = { s with
    mem := storeBytes s.mem a (lowBytes n v) n, stores := noteStore s.stores a n, hwbreakPending := s'.hwbreakPending } ∧
    (s.flags.b = false → s'.hwbreakPending = s.hwbreakPending)

theorem writeCycle_plain (c : Ctx) (e : Word) (second : Bool) (d v : Word) {s : State} {a : Word} {n : Nat} (h : Plain s)
    (hw : Writable s a n) : ∃ s', CycleWrote a n v s s' ∧ writeCycle c e second d a n v s = .done () s' := by
  refine ⟨_, ?_, by simp only [writeCycle, busCycle_write_plain v h hw]; rfl⟩
  obtain ⟨p, e, hb⟩ := noteBreakpoint_form a s
  rw [e]
  exact ⟨rfl, hb⟩

theorem cycleWrote_plain {a : Word} {n : Nat} {v : Word} {s s' : State} (h : CycleWrote a n v s s') (hp : Plain s) :
    Plain s' := by
  rw [h.1]
  exact ⟨hp.mmuOff, hp.testOff, hp.noSingleStep, hp.noWindows, hp.noOutside⟩

theorem cycleWrote_writable {a b : Word} {n k : Nat} {v : Word} {s s' : State} (h : CycleWrote a n v s s')
    (hw : Writable s b k) : Writable s' b k := by
  rw [h.1]
  exact hw

theorem storedAt_lowBytes {a v : Word} {n : Nat} {m m' : List Host.Cell} (hn : n ≤ 4)
    (h : StoredAt a n (lowBytes n v) m m') : StoredAt a n v m m' :=
  ⟨fun i hi => (h.1 i hi).trans (lowBytes_byte v hi hn), h.2⟩

/-- A data write that nothing stands in the way of stores the bytes of the datum, lowest address first. -/
theorem dataWrite_plain (c : Ctx) {s : State} {a : Word} {n : Nat} (v : Word) (h : Plain s) (hm : memWf s.mem = true)
    (hn : n ≤ 4) (hw : Writable s a n) :
    ∃ s', WrittenAt a n v s s' ∧ dataWrite c none a n v s = .done () s' := by
  have hbig : n < physSize := Nat.lt_of_le_of_lt hn (by decide)
  by_cases hc : crosses a n = true
  · have hk : firstPart a < n := crosses_iff.1 hc
    obtain ⟨s1, hs1, e1⟩ := writeCycle_plain c a false (lowBytes n v) (lowBytes n v) h (n := firstPart a)
      fun i hi => hw i (by omega)
    have hw2 : Writable s (a + BitVec.ofNat 32 (firstPart a)) (n - firstPart a) := fun i hi => by
      rw [physIndex_add]
      exact hw _ (by omega)
    obtain ⟨s2, hs2, e2⟩ := writeCycle_plain c a true (lowBytes n v) (lowBytes n v >>> (8 * firstPart a))
      (cycleWrote_plain hs1 h) (cycleWrote_writable hs1 hw2)
    refine ⟨s2, ⟨?_, fun hb => ?_, ?_, fun i hi => ?_⟩, by simp [dataWrite, hc, e1, Act.andThen, writeSecond, e2]⟩
    · rw [hs2.1]
      simp only
      rw [hs1.1]
    · rw [hs2.2 (by rw [hs1.1]; exact hb), hs1.2 hb]
    · have := storedAt_two_parts hm a (lowBytes n v) hk hn
      rw [hs2.1, hs1.1]
      exact storedAt_lowBytes hn this
    · rw [hs2.1, hs1.1]
      simp only [noteStore_fresh]
      rcases Nat.lt_or_ge i (firstPart a) with hik | hik
      · exact markBytes_keeps _ (markBytes_contains _ _ _ hik) _
      · rw [show physIndex a i = physIndex (a + BitVec.ofNat 32 (firstPart a)) (i - firstPart a) by
          rw [physIndex_add, show firstPart a + (i - firstPart a) = i by omega]]
        exact markBytes_contains _ _ _ (by omega)
  · obtain ⟨s1, hs1, e1⟩ := writeCycle_plain c a false (lowBytes n v) (lowBytes n v) h hw
    refine ⟨s1, ⟨?_, hs1.2, ?_, fun i hi => ?_⟩, by simp [dataWrite, hc, e1]⟩
    · rw [hs1.1]
    · rw [hs1.1]
      exact storedAt_lowBytes hn (storedAt_lowBytes hn (storedAt_storeBytes hm _ _ _ hbig))
    · rw [hs1.1]
      simp only [noteStore_fresh]
      exact markBytes_contains _ _ _ hi

end Sys2Proof.Laws
end

