-- ==== Sys2Proof/Laws/Operands.lean ====
section
/-! SUPPORT. Sys2Proof/Laws/Operands.lean: instruction fetch and operands of every form when nothing stands in their way, the
end of an instruction in the words of the claims, and the CPU status record in memory. -/

namespace Sys2Proof.Laws

open Sys2Proof.Machine

/-! ## The end of an instruction -/

/-- A word that transfers no control ends in `finished`. -/
theorem complete_plain (seq : Word) (w k : Bool) {s : State} (h : SlotOk s) :
    complete { seq := seq, transfer := .none, window := w, keepX := k } s = .next (finished seq w k s) := by
  cases hd : s.delay with
  | none => simp only [complete, finished, hd, settle]
  | some d =>
    simp only [complete, finished, hd, endSlot, jumpTo, settle, h d hd, Bool.false_eq_true, if_false]

/-- A transfer of control outside a delay slot ends in `jumped`. -/
theorem complete_jump (seq t : Word) (w : Bool) {s : State} (hd : s.delay = none) (ht : t.getLsbD 0 = false) :
    complete (ending seq (.jump t) w) s = .next (jumped t w s) := by
  simp only [complete, hd, ending, jumpTo, ht, settle, jumped, Bool.false_eq_true, if_false, Bool.and_false]

/-- To an odd address it is U3. -/
theorem complete_jump_odd (seq t : Word) (w : Bool) {s : State} (hd : s.delay = none) (ht : t.getLsbD 0 = true) :
    complete (ending seq (.jump t) w) s = .fault (.oddTarget t) := by
  simp only [complete, hd, ending, jumpTo, ht, if_true]

/-- A delayed transfer of control outside a delay slot ends in `delayedTo`. -/
theorem complete_delayed (seq t : Word) (ret : Bool) {s : State} (hd : s.delay = none) :
    complete (ending seq (.delayed t ret) true) s = .next (delayedTo seq t ret s) := by
  simp [complete, hd, ending, settle, delayedTo]

/-! ## Fetching -/

/-- The prefetch register holds what memory holds. -/
def Prefetched (s : State) : Prop :=
  ∀ p, s.prefetch = some p → p.phys = p.addr ∧ p.half = (loadBytes s.mem p.addr 2).setWidth 16

theorem loadBytes_low_half (m : List Host.Cell) (a : Word) :
    (loadBytes m a 4).setWidth 16 = (loadBytes m a 2).setWidth 16 := by
  rw [← loadBytes_split m a 2 2]
  ext i hi
  simp only [BitVec.getElem_setWidth, BitVec.getLsbD_or, BitVec.getLsbD_shiftLeft]
  have : i < 8 * 2 := by omega
  simp [this]

theorem loadBytes_high_half (m : List Host.Cell) (a : Word) :
    (loadBytes m a 4).extractLsb' 16 16 = (loadBytes m (a + 2#32) 2).setWidth 16 := by
  rw [← loadBytes_split m a 2 2]
  ext i hi
  have h2 : (loadBytes m a 2).getLsbD (16 + i) = false :=
    BitVec.testBit_toNat _ ▸ Nat.testBit_lt_two_pow
      (Nat.lt_of_lt_of_le (loadBytes_lt m a 2 (by decide)) (Nat.pow_le_pow_right (by decide) (by omega)))
  rw [BitVec.getElem_extractLsb', BitVec.getLsbD_or, h2, BitVec.getLsbD_shiftLeft, BitVec.getElem_setWidth]
  have h16 : 16 + i < 32 := by omega
  simp [h16]

theorem fetched_plain {s : State} {a : Word} {h : Half} (hf : staleFetch s a = none) : fetched h a s = .done h s := by
  simp only [fetched, hf]

theorem staleFetch_of_stores {s t : State} (h : t.stores = s.stores) (a : Word) : staleFetch t a = staleFetch s a := by
  simp only [staleFetch, h]

/-- A halfword of code that nothing stands in the way of is read from the prefetch register or from memory, whichever: they
agree, and they agree afterwards. -/
theorem fetchHalf_plain (onFault : Bool → State → Act Half) {s : State} {a : Word} (h : Plain s)
    (he : a.getLsbD 0 = false) (hr : Readable s a 4) (hf : staleFetch s a = none) (hp : Prefetched s) :
    ∃ s', ReadOnly true s s' ∧ Prefetched s' ∧ fetchHalf onFault a s = .done ((loadBytes s.mem a 2).setWidth 16) s' := by
  obtain ⟨q, hq, hb⟩ := noteBreakpoint_form a s
  have hcycle : ∃ s', ReadOnly true s s' ∧ Prefetched s' ∧
      fetchCycle onFault a s = .done ((loadBytes s.mem a 2).setWidth 16) s' := by
    cases h1 : a.getLsbD 1 with
    | true =>
      have hc := busCycle_read_plain h (n := 2) fun i hi => hr i (by omega)
      refine ⟨{ s with hwbreakPending := q, prefetch := none }, ⟨rfl, nofun, hb⟩, nofun, ?_⟩
      simp only [fetchCycle, h1, hc, hq, if_true]
      exact fetched_plain ((staleFetch_of_stores rfl a).trans hf)
    | false =>
      have hc := busCycle_read_plain h hr
      refine ⟨{ s with
          hwbreakPending := q
          prefetch := some { addr := a + 2#32, phys := a + 2#32, half := (loadBytes s.mem a 4).extractLsb' 16 16 } },
        ⟨rfl, nofun, hb⟩, ?_, ?_⟩
      · intro p hp'
        obtain rfl := Option.some.inj hp'
        exact ⟨rfl, loadBytes_high_half s.mem a⟩
      · simp only [fetchCycle, h1, Bool.false_eq_true, if_false, hc, hq, loadBytes_low_half]
        exact fetched_plain ((staleFetch_of_stores rfl a).trans hf)
  unfold fetchHalf
  rw [if_neg (by simp only [he, Bool.false_eq_true, not_false_eq_true])]
  split
  · next p hs =>
    split
    · next ha =>
      obtain ⟨hphys, hhalf⟩ := hp p hs
      refine ⟨{ s with prefetch := none }, ⟨rfl, nofun, fun _ => rfl⟩, nofun, ?_⟩
      rw [hphys, hhalf, ha]
      exact fetched_plain ((staleFetch_of_stores rfl a).trans hf)
    · exact hcycle
  · exact hcycle

/-! ## In-line operands -/

theorem readOnly_mem {b : Bool} {s t : State} (h : ReadOnly b s t) : t.mem = s.mem := by rw [h.1]
theorem readOnly_stores {b : Bool} {s t : State} (h : ReadOnly b s t) : t.stores = s.stores := by rw [h.1]

theorem readOnly_weaken {s t : State} (h : ReadOnly false s t) : ReadOnly true s t := ⟨h.1, nofun, h.2.2⟩

theorem lowBytes_loadBytes (m : List Host.Cell) (a : Word) {n : Nat} (hn : n ≤ 2) :
    lowBytes n (((loadBytes m a 2).setWidth 16).setWidth 32) = loadBytes m a n := by
  have hsplit := loadBytes_split m a n (2 - n)
  rw [show n + (2 - n) = 2 by omega] at hsplit
  apply BitVec.eq_of_getLsbD_eq
  intro i hi
  have hlt : ∀ j, 8 * n ≤ j → (loadBytes m a n).getLsbD j = false := fun j hj =>
    BitVec.testBit_toNat _ ▸ Nat.testBit_lt_two_pow
      (Nat.lt_of_lt_of_le (loadBytes_lt m a n (by omega)) (Nat.pow_le_pow_right (by decide) hj))
  simp only [lowBytes, BitVec.getLsbD_and, BitVec.getLsbD_ushiftRight, BitVec.getLsbD_allOnes, BitVec.getLsbD_setWidth,
    ← hsplit, BitVec.getLsbD_or, BitVec.getLsbD_shiftLeft]
  rcases Nat.lt_or_ge i (8 * n) with h | h
  · have h1 : 32 - 8 * n + i < 32 := by omega
    have h2 : i < 16 := by omega
    simp [h, h1, h2, hi]
  · have h1 : ¬ 32 - 8 * n + i < 32 := by omega
    rw [hlt i h]
    simp [h1]

theorem even_add_two {a : Word} (h : a.getLsbD 0 = false) : (a + 2#32).getLsbD 0 = false := by
  rw [← BitVec.testBit_toNat, Nat.testBit_zero] at h ⊢
  rw [BitVec.toNat_add]
  simp at h ⊢
  omega

/-- An in-line operand that nothing stands in the way of is what memory holds after the word (40_addressing.md R208). -/
theorem inlineRead_plain (c : Ctx) {s : State} {a : Word} {n : Nat} (hn : n ≤ 2 ∨ n = 4) (h : Plain s) (hf : Fetchable s a) :
    ∃ s', ReadOnly true s s' ∧ inlineRead c none a n s = .done (loadBytes s.mem a n) s' := by
  have h0 : staleFetch s a = none := by simpa using hf.fresh 0 (by decide)
  obtain ⟨s1, r1, p1, e1⟩ := fetchHalf_plain
    (fun single s' => raiseData c (dataFault c .read a false 0#32 single) s') h hf.even
    (fun i hi => hf.readable i (by omega)) h0 hf.prefetched
  have e1' : inlineHalf c a false 0#32 a s = .done ((loadBytes s.mem a 2).setWidth 16) s1 := e1
  rcases hn with hn | rfl
  · refine ⟨s1, r1, ?_⟩
    have : n ≠ 4 := by omega
    simp only [inlineRead, this, if_false, e1', Act.andThen, lowBytes_loadBytes s.mem a hn]
  · have hs : staleFetch s1 (a + 2#32) = none := by
      rw [staleFetch_of_stores (readOnly_stores r1)]
      simpa using hf.fresh 1 (by decide)
    obtain ⟨s2, r2, -, e2⟩ := fetchHalf_plain
      (fun single s' => raiseData c (dataFault c .read a true (((loadBytes s.mem a 2).setWidth 16).setWidth 32) single) s')
      (readOnly_plain r1 h) (even_add_two hf.even)
      (readOnly_readable r1 fun i hi => by
        have := hf.readable (2 + i) (by omega)
        rwa [← physIndex_add] at this)
      hs p1
    refine ⟨s2, readOnly_trans r1 r2, ?_⟩
    have e2' : inlineHalf c a true (((loadBytes s.mem a 2).setWidth 16).setWidth 32) (a + 2#32) s1 =
        .done ((loadBytes s1.mem (a + 2#32) 2).setWidth 16) s2 := e2
    have l : ∀ b, ((loadBytes s.mem b 2).setWidth 16).setWidth 32 = loadBytes s.mem b 2 := fun b => by
      have := loadBytes_lt s.mem b 2 (by decide)
      apply BitVec.eq_of_toNat_eq
      rw [BitVec.toNat_setWidth, BitVec.toNat_setWidth, Nat.mod_eq_of_lt this,
        Nat.mod_eq_of_lt (Nat.lt_trans this (by decide))]
    simp only [inlineRead, if_true, e1', Act.andThen, inlineSecond, e2']
    rw [readOnly_mem r1, l, l, show (16 : Nat) = 8 * 2 by decide]
    exact congrArg (Act.done · s2) (loadBytes_split s.mem a 2 2)

/-! ## Operands of every form -/

theorem updateAddress_delay (md : Bool) (r : RegNo) (n : Nat) (a : Word) (s : State) :
    (updateAddress md r n a s).delay = s.delay := by
  unfold updateAddress
  split
  · split <;> simp
  · rfl

theorem updateAddress_flags (md : Bool) (r : RegNo) (n : Nat) (a : Word) (s : State) :
    (updateAddress md r n a s).flags = s.flags := by
  unfold updateAddress
  split
  · split <;> simp
  · rfl

theorem slotOk_of_delay {s t : State} (h : t.delay = s.delay) (hs : SlotOk s) : SlotOk t := fun d hd => hs d (h ▸ hd)

theorem readOnly_delay {b : Bool} {s t : State} (h : ReadOnly b s t) : t.delay = s.delay := by rw [h.1]

/-- The forms that a word may take its memory operand in (45_jump_branch.md R404, 40_addressing.md R215). -/
theorem operandRefusal_none {md : Bool} {r : RegNo} {s : State}
    (h1 : s.delay.isSome = true → s.prefixAddr = none ∧ isInline md r s = false)
    (h2 : md = true → r = 15#4 → s.prefixAddr = none) : operandRefusal md r s = none := by
  unfold operandRefusal
  rw [if_neg, if_neg]
  · intro h
    simp only [Bool.and_eq_true, beq_iff_eq] at h
    simp [h2 h.1.1 h.1.2] at h
  · intro h
    simp only [Bool.and_eq_true, Bool.or_eq_true] at h
    obtain ⟨hp, hi⟩ := h1 h.1
    simp [hp, hi] at h

/-- A memory operand that nothing stands in the way of is read, then its address register is updated (40_addressing.md R204
to R206). -/
theorem loadOperand_ready (c : Ctx) {md : Bool} {r : RegNo} {n : Nat} {s : State} (hn : n ≤ 2 ∨ n = 4)
    (h : OperandReady md r n s) :
    ∃ s₁, ReadOnly (isInline md r s) s s₁ ∧
      loadOperand c md r n s = .done (memoryValue r n s) (updateAddress md r n (operandAddress r s) s₁) := by
  have hb := h.bytes
  have hr : restartCycle s = none := by simp [restartCycle, h.noRestart]
  simp only [loadOperand, operandRefusal_none h.slotForm h.noAssign, hr, readOperand]
  split at hb
  · next hi =>
    obtain ⟨s1, r1, e1⟩ := inlineRead_plain c hn h.plain hb
    exact ⟨s1, hi ▸ r1, by simp only [hi, if_true, e1, Act.andThen, memoryValue]⟩
  · next hi =>
    obtain ⟨s1, r1, e1⟩ := dataRead_plain c h.plain hb
    have hi' : isInline md r s = false := by simpa using hi
    exact ⟨s1, hi' ▸ r1, by simp only [hi', Bool.false_eq_true, if_false, e1, Act.andThen, memoryValue]⟩

/-- A store that nothing stands in the way of is done, then the address register is updated (40_addressing.md R207). -/
theorem storeOperand_ready (c : Ctx) {md : Bool} {r : RegNo} {n : Nat} (v : Word) {s : State} (hn : n ≤ 4)
    (h : StoreReady md r n s) (hx : storeSuppressed s = false) :
    ∃ s₁, WrittenAt (operandAddress r s) n v s s₁ ∧
      storeOperand c md r n v s = .done () (updateAddress md r n (operandAddress r s) s₁) := by
  have hr : restartCycle s = none := by simp [restartCycle, h.noRestart]
  obtain ⟨s1, w1, e1⟩ := dataWrite_plain c v h.plain h.memory hn h.bytes
  exact ⟨s1, w1, by
    simp only [storeOperand, operandRefusal_none h.slotForm h.noAssign, hr, hx, Bool.false_eq_true, if_false, e1,
      Act.andThen]⟩

/-- A store that the conditional test suppresses: P is set, no cycle is made, the address register is updated
(20_memory.md R76). -/
theorem storeOperand_suppressed (c : Ctx) {md : Bool} {r : RegNo} {n : Nat} (v : Word) {s : State}
    (h1 : s.delay.isSome = true → s.prefixAddr = none ∧ isInline md r s = false)
    (h2 : md = true → r = 15#4 → s.prefixAddr = none) (hx : storeSuppressed s = true) :
    storeOperand c md r n v s = .done () (updateAddress md r n (operandAddress r s) (noteSuppressed s)) := by
  simp only [storeOperand, operandRefusal_none h1 h2, hx, if_true, Act.andThen]

/-! ## Two-operand instructions -/

/-- What a two-operand instruction leaves in the registers and the flags. -/
def aluResult (f : AluForm) (d : RegNo) (x : Word × Flags) (s : State) : State :=
  if f.dest.writes then withResult f.size d x s else withFlags x.2 s

theorem writeBack_plain (f : AluForm) {d : RegNo} (x : Word × Flags) (seq : Word) {s : State} (h : SlotOk s)
    (hd : f.dest.writes = true → d ≠ 15#4) :
    writeBack f d x.1 x.2 seq s = .next (finished seq f.window false (aluResult f d x s)) := by
  unfold writeBack aluResult
  cases hw : f.dest.writes with
  | true =>
    simp only [if_true, hd hw, if_false]
    exact complete_plain seq f.window false (slotOk_of_delay (by simp) h)
  | false =>
    simp only [Bool.false_eq_true, if_false]
    exact complete_plain seq f.window false (slotOk_of_delay rfl h)

theorem destRefusal_none {f : AluForm} {d : RegNo} {s : State} (hd : f.dest.writes = true → d ≠ 15#4) :
    destRefusal f d s = none := by
  unfold destRefusal
  rw [if_neg]
  intro h
  simp only [Bool.and_eq_true, beq_iff_eq] at h
  exact hd h.1 h.2

/-- Quick and register forms, the destination not PC. -/
theorem aluCore_plain (f : AluForm) (g : Calc) {d : RegNo} (src : Word) {s : State} (hp : s.prefixAddr = none)
    (h : SlotOk s) (hd : f.dest.writes = true → d ≠ 15#4) :
    aluCore f g d src s = .next (finished (pcPlus2 s) f.window false
      (aluResult f d (g s.flags (truncSize f.size (readReg d s)) src) s)) := by
  simp only [aluCore, hp, Option.isSome_none, Bool.false_eq_true, if_false, destRefusal_none hd]
  exact writeBack_plain f _ _ h hd

/-- Quick and register forms with PC as the destination, where it may be: a jump to the result (10_state.md R30). -/
theorem aluCore_pc (f : AluForm) (g : Calc) (src : Word) {s : State} (hp : s.prefixAddr = none) (hd : s.delay = none)
    (hw : f.dest.writes = true) (hpc : f.pcDest = true) :
    aluCore f g 15#4 src s =
      let x := g s.flags (truncSize f.size (pcPlus2 s)) src
      let t := mergeSize f.size (pcPlus2 s) x.1
      if t.getLsbD 0 then .fault (.oddTarget t) else .next (jumped t f.window (withFlags x.2 s)) := by
  have hr : readReg 15#4 s = pcPlus2 s := by simp [readReg]
  have hn : destRefusal f 15#4 s = none := by simp [destRefusal, hw, hpc, hd]
  simp only [aluCore, hp, Option.isSome_none, Bool.false_eq_true, if_false, hn, hr, writeBack, hw, if_true]
  split
  · next h => exact complete_jump_odd _ _ _ hd h
  · next h => exact complete_jump _ _ _ hd (by simpa only [Bool.not_eq_true] using h)

/-- Memory forms, the destination not PC. -/
theorem aluMem_ready (f : AluForm) (g : Calc) (word : Half) {d : RegNo} {md : Bool} {r : RegNo} {s : State}
    (h : OperandReady md r (sizeBytes f.access) s) (href : memoryRefusal f d md r s = none)
    (hd : f.dest.writes = true → memoryDest f d md r s ≠ 15#4) :
    ∃ s₁, ReadOnly (isInline md r s) s s₁ ∧
      aluMem f g word d md r s = .next (finished (endAddress md r (sizeBytes f.access) s) f.window false
        (aluResult f (memoryDest f d md r s)
          (g s.flags (truncSize f.size (readReg d s)) (f.source (memoryValue r (sizeBytes f.access) s)))
          (updateAddress md r (sizeBytes f.access) (operandAddress r s) s₁))) := by
  have hn : sizeBytes f.access ≤ 2 ∨ sizeBytes f.access = 4 := by cases f.access <;> simp [sizeBytes]
  obtain ⟨s1, r1, e1⟩ := loadOperand_ready
    { word := word, endPc := endAddress md r (sizeBytes f.access) s } hn h
  refine ⟨s1, r1, ?_⟩
  simp only [aluMem, href, e1, Act.finish]
  exact writeBack_plain f _ _ (slotOk_of_delay ((updateAddress_delay ..).trans (readOnly_delay r1)) h.slot) hd

/-- Stores of a register. -/
theorem storeReg_ready (m : Size) (word : Half) {r d : RegNo} {md : Bool} {s : State}
    (h : StoreReady md d (sizeBytes m) s) (hx : storeSuppressed s = false) :
    ∃ s₁, WrittenAt (operandAddress d s) (sizeBytes m) (readReg r s) s s₁ ∧
      storeReg m word r md d s = .next (finished (endAddress md d (sizeBytes m) s) false false
        (updateAddress md d (sizeBytes m) (operandAddress d s) s₁)) := by
  have hn : sizeBytes m ≤ 4 := by cases m <;> simp [sizeBytes]
  obtain ⟨s1, w1, e1⟩ := storeOperand_ready
    { word := word, endPc := endAddress md d (sizeBytes m) s } (readReg r s) hn h hx
  refine ⟨s1, w1, ?_⟩
  simp only [storeReg, e1, Act.finish]
  exact complete_plain _ _ _ (slotOk_of_delay ((updateAddress_delay ..).trans (by rw [w1.1])) h.slot)

/-! ## The CPU status record in memory -/

/-- Where the fields have places of their own, each byte of a field stands at its offset (60_exceptions.md R481). -/
theorem recordByte_of_layoutOk {l : Config.RecordLayout} (h : LayoutOk l) (r : StatusRecord) :
    (∀ j, j < 4 → recordByte l r (l.pc + j) = (r.pc >>> (8 * j)).setWidth 8) ∧
    (∀ j, j < 2 → recordByte l r (l.state + j) = ((r.state.setWidth 32 : Word) >>> (8 * j)).setWidth 8) ∧
    (∀ j, j < 2 → recordByte l r (l.instr + j) = ((r.instr.setWidth 32 : Word) >>> (8 * j)).setWidth 8) ∧
    (∀ j, j < 4 → recordByte l r (l.addr + j) = (r.addr >>> (8 * j)).setWidth 8) ∧
    ∀ j, j < 4 → recordByte l r (l.data + j) = (r.data >>> (8 * j)).setWidth 8 := by
  simp only [LayoutOk, List.pairwise_cons, List.mem_cons, forall_eq_or_imp, List.not_mem_nil, false_implies,
    implies_true, and_true, List.Pairwise.nil] at h
  refine ⟨?_, ?_, ?_, ?_, ?_⟩ <;> intro j hj <;> unfold recordByte placeField <;>
    simp (disch := omega) only [if_pos, if_neg, Nat.add_sub_cancel_left, BitVec.or_zero, BitVec.zero_or]

/-- Byte `k` of a dword joined from four. -/
theorem byte_of_joinBytes (b : Nat → Byte) (k : Nat) (h : k < 4) :
    (joinBytes b 4 >>> (8 * k)).setWidth 8 = b k := by
  interval_cases k <;> ext i hi <;> interval_cases i <;> simp [joinBytes]

/-- Joining the bytes of a dword gives its low bytes. -/
theorem joinBytes_of_bytes (v : Word) :
    joinBytes (fun i => (v >>> (8 * i)).setWidth 8) 4 = v ∧
      joinBytes (fun i => (v >>> (8 * i)).setWidth 8) 2 = (v.setWidth 16).setWidth 32 := by
  refine ⟨?_, ?_⟩ <;> ext i hi <;> interval_cases i <;> simp [joinBytes]

/-- Byte `m` of a record in the dwords that SBFS writes (60_exceptions.md R481). -/
theorem byte_of_recordDwords (l : Config.RecordLayout) (r : StatusRecord) (m : Nat) (h : m < 16) :
    byteOfDwords #v[recordDword l r 0, recordDword l r 1, recordDword l r 2, recordDword l r 3] m = recordByte l r m := by
  have e : ∀ k, m / 4 = k → recordByte l r m = recordByte l r (4 * k + m % 4) := fun k hk => by congr 1; omega
  have hm : m / 4 = 0 ∨ m / 4 = 1 ∨ m / 4 = 2 ∨ m / 4 = 3 := by omega
  rcases hm with hm | hm | hm | hm <;> rw [e _ hm] <;>
    simp [byteOfDwords, hm, recordDword, byte_of_joinBytes _ _ (Nat.mod_lt m (by decide : 0 < 4))]

/-- Joining four or two bytes looks at them only. -/
theorem joinBytes_congr {b c : Nat → Byte} : ∀ {n : Nat}, (∀ i, i < n → b i = c i) → joinBytes b n = joinBytes c n
  | 0, _ => rfl
  | n + 1, h => by
    simp only [joinBytes, h n (Nat.lt_succ_self n), joinBytes_congr fun i hi => h i (Nat.lt_succ_of_lt hi)]

/-- What SBFS writes is what RBF reads, for every layout that gives the fields places of their own (60_exceptions.md R481). -/
theorem recordOfDwords_recordDword {l : Config.RecordLayout} (h : LayoutOk l) (r : StatusRecord) :
    recordOfDwords l #v[recordDword l r 0, recordDword l r 1, recordDword l r 2, recordDword l r 3] = r := by
  obtain ⟨hp, hs, hi, ha, hd⟩ := recordByte_of_layoutOk h r
  have hw := h.1
  simp only [List.mem_cons, forall_eq_or_imp, List.not_mem_nil, false_implies, implies_true, and_true] at hw
  have field : ∀ (off n : Nat) (v : Word), off + n ≤ 16 →
      (∀ j, j < n → recordByte l r (off + j) = (v >>> (8 * j)).setWidth 8) →
      joinBytes (fun i => byteOfDwords
        #v[recordDword l r 0, recordDword l r 1, recordDword l r 2, recordDword l r 3] (off + i)) n =
        joinBytes (fun i => (v >>> (8 * i)).setWidth 8) n := fun off n v hn hv =>
    joinBytes_congr fun i hi => by rw [byte_of_recordDwords _ _ _ (by omega), hv i hi]
  simp only [recordOfDwords, field _ _ _ hw.1 hp, field _ _ _ hw.2.1 hs, field _ _ _ hw.2.2.1 hi,
    field _ _ _ hw.2.2.2.1 ha, field _ _ _ hw.2.2.2.2 hd, (joinBytes_of_bytes _).1, (joinBytes_of_bytes _).2]
  simp

end Sys2Proof.Laws
end

