-- ==== Sys2Proof/Laws/PerInstr.lean ====
section
/-! SUPPORT. Sys2Proof/Laws/PerInstr.lean: the law of each instruction that decoding its word gives it back. -/

namespace Sys2Proof.Laws

set_option Elab.async false

/-! ## Words that are no instruction -/

theorem fieldMode_and (w m : Half) : fieldMode (w &&& m) = fieldMode w &&& fieldMode m := BitVec.extractLsb'_and
theorem fieldOpcode_and (w m : Half) : fieldOpcode (w &&& m) = fieldOpcode w &&& fieldOpcode m := BitVec.extractLsb'_and
theorem fieldSize_and (w m : Half) : fieldSize (w &&& m) = fieldSize w &&& fieldSize m := BitVec.extractLsb'_and
theorem fieldOp2_and (w m : Half) : fieldOp2 (w &&& m) = fieldOp2 w &&& fieldOp2 m := BitVec.extractLsb'_and
theorem fieldOp1_and (w m : Half) : fieldOp1 (w &&& m) = fieldOp1 w &&& fieldOp1 m := BitVec.extractLsb'_and

/-- A memory-mode word, from the test that ignores bit 10: its mode, opcode and size. -/
theorem fields_of_mask0BF0 {w v : Half} (h : w &&& 0x0BF0#16 = v) :
    fieldMode w &&& 2#2 = fieldMode v ∧ fieldOpcode w = fieldOpcode v ∧ fieldSize w = fieldSize v := by
  subst h
  refine ⟨by rw [fieldMode_and]; rfl, ?_, ?_⟩
  · rw [fieldOpcode_and, show fieldOpcode 0x0BF0#16 = BitVec.allOnes 4 by decide, BitVec.and_allOnes]
  · rw [fieldSize_and, show fieldSize 0x0BF0#16 = BitVec.allOnes 2 by decide, BitVec.and_allOnes]

theorem fields_of_mask0FF0 {w v : Half} (h : w &&& 0x0FF0#16 = v) :
    fieldMode w = fieldMode v ∧ fieldOpcode w = fieldOpcode v ∧ fieldSize w = fieldSize v := by
  subst h
  refine ⟨?_, ?_, ?_⟩
  · rw [fieldMode_and, show fieldMode 0x0FF0#16 = BitVec.allOnes 2 by decide, BitVec.and_allOnes]
  · rw [fieldOpcode_and, show fieldOpcode 0x0FF0#16 = BitVec.allOnes 4 by decide, BitVec.and_allOnes]
  · rw [fieldSize_and, show fieldSize 0x0FF0#16 = BitVec.allOnes 2 by decide, BitVec.and_allOnes]

/-- With bit 11 set the word is decoded as a memory form. -/
theorem decodeWord_mem {w : Half} (h : fieldMode w &&& 2#2 = 2#2) : decodeWord w = decodeMem w := by
  unfold decodeWord
  have h23 : ∀ b : BitVec 2, b &&& 2#2 = 2#2 → b = 2#2 ∨ b = 3#2 := by decide
  rcases h23 _ h with h' | h' <;> rw [h'] <;> rfl

/-- Words that differ under the mask of Operand2 differ in Operand2. -/
theorem op2_ne {w v : Half} (h : w &&& 0xF000#16 ≠ v &&& 0xF000#16) : fieldOp2 w ≠ fieldOp2 v := by
  intro h0
  apply h
  apply BitVec.eq_of_getLsbD_eq
  intro i hi
  rw [BitVec.getLsbD_and, BitVec.getLsbD_and]
  rcases Nat.lt_or_ge i 12 with h1 | h1
  · have hz : ∀ i, i < 12 → (0xF000#16 : Half).getLsbD i = false := by decide
    rw [hz i h1, Bool.and_false, Bool.and_false]
  · have := congrArg (fun a : BitVec 4 => a.getLsbD (i - 12)) h0
    have h4 : i - 12 < 4 := by omega
    simp only [fieldOp2, BitVec.getLsbD_extractLsb', show 12 + (i - 12) = i by omega, h4, decide_true,
      Bool.true_and] at this
    rw [this]

/-- A word is put together from its fields. -/
theorem mkWord_fields (w : Half) :
    mkWord (fieldOp2 w) (fieldMode w) (fieldOpcode w) (fieldSize w) (fieldOp1 w) = w := by
  apply BitVec.eq_of_getLsbD_eq
  intro i hi
  rw [getLsbD_mkWord]
  simp only [fieldOp2, fieldMode, fieldOpcode, fieldSize, fieldOp1, BitVec.getLsbD_extractLsb']
  split_ifs with h1 h2 h3 h4
  · simp [h1]
  · simp [show i - 4 < 2 by omega, show 4 + (i - 4) = i by omega]
  · simp [show i - 6 < 4 by omega, show 6 + (i - 6) = i by omega]
  · simp [show i - 10 < 2 by omega, show 10 + (i - 10) = i by omega]
  · simp [show i - 12 < 4 by omega, show 12 + (i - 12) = i by omega]

theorem fieldMd_eq (w : Half) : fieldMd w = (fieldMode w).getLsbD 0 := by
  simp [fieldMd, fieldMode]

theorem decodeJumpMem_not_member {w : Half} (h : notJumpMember w = true) : decodeJumpMem w = .unlisted w := by
  unfold notJumpMember at h
  unfold decodeJumpMem fieldOp2
  split at h <;> simp_all

theorem decodeJumpReg_not_member {w : Half} (hm : fieldMd w = false)
    (h : notJumpMember w = true ∨ fieldOp2 w = 8#4 ∨ fieldOp2 w = 14#4) : decodeJumpReg w = .unlisted w := by
  unfold decodeJumpReg
  rw [hm]
  rcases h with h | h | h
  · unfold notJumpMember at h
    unfold fieldOp2
    split at h <;> simp_all
  · simp [h]
  · simp [h]

theorem op2_of_mask {w v : Half} (h : w &&& 0xF000#16 = v) : fieldOp2 w = fieldOp2 v := by
  subst h
  rw [fieldOp2_and, show fieldOp2 0xF000#16 = BitVec.allOnes 4 by decide, BitVec.and_allOnes]

/-- Memory forms by opcode and size. -/
theorem decode_mem {w v : Half} (h : w &&& 0x0BF0#16 = v) (hv : fieldMode v = 2#2) :
    decodeWord w = decodeMem w ∧ fieldOpcode w = fieldOpcode v ∧ fieldSize w = fieldSize v := by
  obtain ⟨hm, ho, hz⟩ := fields_of_mask0BF0 h
  exact ⟨decodeWord_mem (hm.trans hv), ho, hz⟩

theorem decode_reserved {w : Half} (h : isReserved w = true) : decodeWord w = .reserved w := by
  simp only [isReserved, Bool.or_eq_true, beq_iff_eq] at h
  rcases h with (((((h | h) | h) | h) | h) | h) | h
  · obtain ⟨hm, ho, hz⟩ := fields_of_mask0FF0 h
    rw [decodeWord, hm, decodeReg, ho, hz]
    rfl
  · obtain ⟨hd, ho, hz⟩ := decode_mem h rfl
    rw [hd, decodeMem, ho, hz]
    rfl
  · obtain ⟨hd, ho, hz⟩ := decode_mem h rfl
    rw [hd, decodeMem, ho, hz]
    rfl
  · obtain ⟨hd, ho, hz⟩ := decode_mem h rfl
    rw [hd, decodeMem, ho, hz]
    rfl
  · obtain ⟨hd, ho, hz⟩ := decode_mem h rfl
    rw [hd, decodeMem, ho, hz]
    rfl
  · obtain ⟨hd, ho, hz⟩ := decode_mem h rfl
    rw [hd, decodeMem, ho, hz]
    rfl
  · obtain ⟨hm, ho, hz⟩ := fields_of_mask0FF0 h
    have hmd : fieldMd w = true := by
      rw [fieldMd_eq, hm]
      decide
    rw [decodeWord, hm, decodeMem, ho, hz]
    show decodeJumpReg w = _
    rw [decodeJumpReg, hmd]
    rfl

theorem decode_unlisted {w : Half} (h : isUnlisted w = true) : decodeWord w = .unlisted w := by
  simp only [isUnlisted, Bool.or_eq_true, Bool.and_eq_true, beq_iff_eq, bne_iff_ne] at h
  rcases h with ((((((⟨h, hj⟩ | h) | ⟨h, hj⟩) | ⟨h, hj⟩) | ⟨h, hj⟩) | ⟨h, hj⟩) | ⟨h, hj⟩) | ⟨h, hj⟩
  · obtain ⟨hd, ho, hz⟩ := decode_mem h rfl
    rw [hd, decodeMem, ho, hz]
    cases hmd : fieldMd w <;> exact decodeJumpMem_not_member hj
  · have h' : w &&& 0x0FF0#16 = 0x0D30#16 := by
      have : w &&& 0xFFF0#16 &&& 0x0FF0#16 = _ := congrArg (· &&& 0x0FF0#16) h
      rw [BitVec.and_assoc] at this
      exact this
    have h2 : w &&& 0xF000#16 = 0xE000#16 := by
      have : w &&& 0xFFF0#16 &&& 0xF000#16 = _ := congrArg (· &&& 0xF000#16) h
      rw [BitVec.and_assoc] at this
      exact this
    obtain ⟨hm, ho, hz⟩ := fields_of_mask0FF0 h'
    have hmd : fieldMd w = true := by
      rw [fieldMd_eq, hm]
      decide
    rw [decodeWord, hm, decodeMem, ho, hz, hmd]
    show decodeJumpMem w = _
    rw [decodeJumpMem, op2_of_mask h2, hmd]
    rfl
  · obtain ⟨hm, ho, hz⟩ := fields_of_mask0FF0 h
    have hmd : fieldMd w = false := by
      rw [fieldMd_eq, hm]
      decide
    rw [decodeWord, hm, decodeMem, ho, hz]
    refine decodeJumpReg_not_member hmd ?_
    rcases hj with (hj | hj) | hj
    · exact .inl hj
    · exact .inr (.inl (op2_of_mask hj))
    · exact .inr (.inr (op2_of_mask hj))
  · obtain ⟨hd, ho, hz⟩ := decode_mem h rfl
    rw [hd, decodeMem, ho, hz]
    show (if fieldOp2 w = 0#4 then _ else _) = _
    rw [if_neg (show fieldOp2 w ≠ 0#4 from op2_ne (v := 0#16) hj)]
  · obtain ⟨hd, ho, hz⟩ := decode_mem h rfl
    rw [hd, decodeMem, ho, hz]
    show (if fieldMd w = true ∧ fieldOp1 w = 15#4 then _ else _) = _
    rw [if_neg]
    rintro ⟨h1, h2⟩
    apply hj
    have hm : fieldMode w = 3#2 := by
      have h23 : ∀ b : BitVec 2, b &&& 2#2 = 2#2 → b.getLsbD 0 = true → b = 3#2 := by decide
      exact h23 _ (fields_of_mask0BF0 h).1 (fieldMd_eq w ▸ h1)
    rw [← mkWord_fields w, hm, ho, hz, h2]
    have : ∀ a : BitVec 4,
      mkWord a 3#2 (fieldOpcode 0x09F0#16) (fieldSize 0x09F0#16) 15#4 &&& 0x0FFF#16 = 0x0DFF#16 := by decide
    exact this _
  · obtain ⟨hd, ho, hz⟩ := decode_mem h rfl
    rw [hd, decodeMem, ho, hz]
    show (if fieldOp2 w = 3#4 then _ else _) = _
    rw [if_neg (show fieldOp2 w ≠ 3#4 from op2_ne (v := 0x3000#16) hj)]
  · obtain ⟨hd, ho, hz⟩ := decode_mem h rfl
    rw [hd, decodeMem, ho, hz]
    show (if fieldOp2 w = 3#4 then _ else _) = _
    rw [if_neg (show fieldOp2 w ≠ 3#4 from op2_ne (v := 0x3000#16) hj)]
  · have hj' : fieldOp2 w ≠ 0#4 := op2_ne (v := 0#16) hj
    rcases h with (h | h) | h <;>
    · obtain ⟨hd, ho, hz⟩ := decode_mem h rfl
      rw [hd, decodeMem, ho, hz]
      show (if fieldOp2 w = 0#4 then _ else _) = _
      rw [if_neg hj']

/-! ## The law -/

/-- Decoding the word of a well-formed instruction gives the instruction (30_encoding.md R139). -/
def EncodeRoundTrip.Statement (i : Instr) : Prop := WellFormed i = true → decodeWord (encode i) = i

theorem EncodeRoundTrip.bcc (c : Cond) (o : BitVec 8) :
    EncodeRoundTrip.Statement (.bcc c o) := by
  intro _
  have h : ∀ t : BitVec 2, (0#2 ++ t : BitVec 4).toNat = 0 ∨ (0#2 ++ t : BitVec 4).toNat = 1 ∨
      (0#2 ++ t : BitVec 4).toNat = 2 ∨ (0#2 ++ t : BitVec 4).toNat = 3 := by decide
  have hm : fieldMode (c.code ++ 0#4 ++ o) = 0#2 := fieldMode_byteWord ..
  have ho : fieldOpcode (c.code ++ 0#4 ++ o) = 0#2 ++ o.extractLsb' 6 2 := fieldOpcode_byteWord ..
  rcases h (o.extractLsb' 6 2) with h | h | h | h <;>
    simp [encode, decodeWord, decodeQuick, hm, ho, h, fieldOp2_byteWord, fieldByte_byteWord]

theorem EncodeRoundTrip.bdapByte (b : RegNo) (o : BitVec 8) :
    EncodeRoundTrip.Statement (.bdapByte b o) := by
  intro _
  have h : ∀ t : BitVec 2, (1#2 ++ t : BitVec 4).toNat = 4 ∨ (1#2 ++ t : BitVec 4).toNat = 5 ∨
      (1#2 ++ t : BitVec 4).toNat = 6 ∨ (1#2 ++ t : BitVec 4).toNat = 7 := by decide
  have hm : fieldMode (b ++ 1#4 ++ o) = 0#2 := fieldMode_byteWord ..
  have ho : fieldOpcode (b ++ 1#4 ++ o) = 1#2 ++ o.extractLsb' 6 2 := fieldOpcode_byteWord ..
  rcases h (o.extractLsb' 6 2) with h | h | h | h <;>
    simp [encode, decodeWord, decodeQuick, hm, ho, h, fieldOp2_byteWord, fieldByte_byteWord]

theorem EncodeRoundTrip.addq (d : RegNo) (j : BitVec 6) :
    EncodeRoundTrip.Statement (.addq d j) := by
  intro _; simp [encode, decodeWord, decodeQuick]

theorem EncodeRoundTrip.moveq (d : RegNo) (i : BitVec 6) :
    EncodeRoundTrip.Statement (.moveq d i) := by
  intro _; simp [encode, decodeWord, decodeQuick]

theorem EncodeRoundTrip.subq (d : RegNo) (j : BitVec 6) :
    EncodeRoundTrip.Statement (.subq d j) := by
  intro _; simp [encode, decodeWord, decodeQuick]

theorem EncodeRoundTrip.cmpq (d : RegNo) (i : BitVec 6) :
    EncodeRoundTrip.Statement (.cmpq d i) := by
  intro _; simp [encode, decodeWord, decodeQuick]

theorem EncodeRoundTrip.andq (d : RegNo) (i : BitVec 6) :
    EncodeRoundTrip.Statement (.andq d i) := by
  intro _; simp [encode, decodeWord, decodeQuick]

theorem EncodeRoundTrip.orq (d : RegNo) (i : BitVec 6) :
    EncodeRoundTrip.Statement (.orq d i) := by
  intro _; simp [encode, decodeWord, decodeQuick]

theorem EncodeRoundTrip.btstq (d : RegNo) (c : BitVec 5) :
    EncodeRoundTrip.Statement (.btstq d c) := by
  intro _; simp [encode, decodeWord, decodeQuick]

theorem EncodeRoundTrip.asrq (d : RegNo) (c : BitVec 5) :
    EncodeRoundTrip.Statement (.asrq d c) := by
  intro _; simp [encode, decodeWord, decodeQuick]

theorem EncodeRoundTrip.lslq (d : RegNo) (c : BitVec 5) :
    EncodeRoundTrip.Statement (.lslq d c) := by
  intro _; simp [encode, decodeWord, decodeQuick]

theorem EncodeRoundTrip.lsrq (d : RegNo) (c : BitVec 5) :
    EncodeRoundTrip.Statement (.lsrq d c) := by
  intro _; simp [encode, decodeWord, decodeQuick]

theorem EncodeRoundTrip.adduBReg (d : RegNo) (s : RegNo) :
    EncodeRoundTrip.Statement (.adduBReg d s) := by
  intro _; simp [encode, decodeWord, decodeReg, pickSize]

theorem EncodeRoundTrip.adduBMem (d : RegNo) (md : Bool) (s : RegNo) :
    EncodeRoundTrip.Statement (.adduBMem d md s) := by
  intro _; cases md <;> simp [encode, memMode, decodeWord, decodeMem, pickSize]

theorem EncodeRoundTrip.adduWReg (d : RegNo) (s : RegNo) :
    EncodeRoundTrip.Statement (.adduWReg d s) := by
  intro _; simp [encode, decodeWord, decodeReg, pickSize]

theorem EncodeRoundTrip.adduWMem (d : RegNo) (md : Bool) (s : RegNo) :
    EncodeRoundTrip.Statement (.adduWMem d md s) := by
  intro _; cases md <;> simp [encode, memMode, decodeWord, decodeMem, pickSize]

theorem EncodeRoundTrip.addsBReg (d : RegNo) (s : RegNo) :
    EncodeRoundTrip.Statement (.addsBReg d s) := by
  intro _; simp [encode, decodeWord, decodeReg, pickSize]

theorem EncodeRoundTrip.addsBMem (d : RegNo) (md : Bool) (s : RegNo) :
    EncodeRoundTrip.Statement (.addsBMem d md s) := by
  intro _; cases md <;> simp [encode, memMode, decodeWord, decodeMem, pickSize]

theorem EncodeRoundTrip.addsWReg (d : RegNo) (s : RegNo) :
    EncodeRoundTrip.Statement (.addsWReg d s) := by
  intro _; simp [encode, decodeWord, decodeReg, pickSize]

theorem EncodeRoundTrip.addsWMem (d : RegNo) (md : Bool) (s : RegNo) :
    EncodeRoundTrip.Statement (.addsWMem d md s) := by
  intro _; cases md <;> simp [encode, memMode, decodeWord, decodeMem, pickSize]

theorem EncodeRoundTrip.movuBReg (d : RegNo) (s : RegNo) :
    EncodeRoundTrip.Statement (.movuBReg d s) := by
  intro _; simp [encode, decodeWord, decodeReg, pickSize]

theorem EncodeRoundTrip.movuBMem (d : RegNo) (md : Bool) (s : RegNo) :
    EncodeRoundTrip.Statement (.movuBMem d md s) := by
  intro _; cases md <;> simp [encode, memMode, decodeWord, decodeMem, pickSize]

theorem EncodeRoundTrip.movuWReg (d : RegNo) (s : RegNo) :
    EncodeRoundTrip.Statement (.movuWReg d s) := by
  intro _; simp [encode, decodeWord, decodeReg, pickSize]

theorem EncodeRoundTrip.movuWMem (d : RegNo) (md : Bool) (s : RegNo) :
    EncodeRoundTrip.Statement (.movuWMem d md s) := by
  intro _; cases md <;> simp [encode, memMode, decodeWord, decodeMem, pickSize]

theorem EncodeRoundTrip.movsBReg (d : RegNo) (s : RegNo) :
    EncodeRoundTrip.Statement (.movsBReg d s) := by
  intro _; simp [encode, decodeWord, decodeReg, pickSize]

theorem EncodeRoundTrip.movsBMem (d : RegNo) (md : Bool) (s : RegNo) :
    EncodeRoundTrip.Statement (.movsBMem d md s) := by
  intro _; cases md <;> simp [encode, memMode, decodeWord, decodeMem, pickSize]

theorem EncodeRoundTrip.movsWReg (d : RegNo) (s : RegNo) :
    EncodeRoundTrip.Statement (.movsWReg d s) := by
  intro _; simp [encode, decodeWord, decodeReg, pickSize]

theorem EncodeRoundTrip.movsWMem (d : RegNo) (md : Bool) (s : RegNo) :
    EncodeRoundTrip.Statement (.movsWMem d md s) := by
  intro _; cases md <;> simp [encode, memMode, decodeWord, decodeMem, pickSize]

theorem EncodeRoundTrip.subuBReg (d : RegNo) (s : RegNo) :
    EncodeRoundTrip.Statement (.subuBReg d s) := by
  intro _; simp [encode, decodeWord, decodeReg, pickSize]

theorem EncodeRoundTrip.subuBMem (d : RegNo) (md : Bool) (s : RegNo) :
    EncodeRoundTrip.Statement (.subuBMem d md s) := by
  intro _; cases md <;> simp [encode, memMode, decodeWord, decodeMem, pickSize]

theorem EncodeRoundTrip.subuWReg (d : RegNo) (s : RegNo) :
    EncodeRoundTrip.Statement (.subuWReg d s) := by
  intro _; simp [encode, decodeWord, decodeReg, pickSize]

theorem EncodeRoundTrip.subuWMem (d : RegNo) (md : Bool) (s : RegNo) :
    EncodeRoundTrip.Statement (.subuWMem d md s) := by
  intro _; cases md <;> simp [encode, memMode, decodeWord, decodeMem, pickSize]

theorem EncodeRoundTrip.subsBReg (d : RegNo) (s : RegNo) :
    EncodeRoundTrip.Statement (.subsBReg d s) := by
  intro _; simp [encode, decodeWord, decodeReg, pickSize]

theorem EncodeRoundTrip.subsBMem (d : RegNo) (md : Bool) (s : RegNo) :
    EncodeRoundTrip.Statement (.subsBMem d md s) := by
  intro _; cases md <;> simp [encode, memMode, decodeWord, decodeMem, pickSize]

theorem EncodeRoundTrip.subsWReg (d : RegNo) (s : RegNo) :
    EncodeRoundTrip.Statement (.subsWReg d s) := by
  intro _; simp [encode, decodeWord, decodeReg, pickSize]

theorem EncodeRoundTrip.subsWMem (d : RegNo) (md : Bool) (s : RegNo) :
    EncodeRoundTrip.Statement (.subsWMem d md s) := by
  intro _; cases md <;> simp [encode, memMode, decodeWord, decodeMem, pickSize]

theorem EncodeRoundTrip.cmpuBMem (d : RegNo) (md : Bool) (s : RegNo) :
    EncodeRoundTrip.Statement (.cmpuBMem d md s) := by
  intro _; cases md <;> simp [encode, memMode, decodeWord, decodeMem, pickSize]

theorem EncodeRoundTrip.cmpuWMem (d : RegNo) (md : Bool) (s : RegNo) :
    EncodeRoundTrip.Statement (.cmpuWMem d md s) := by
  intro _; cases md <;> simp [encode, memMode, decodeWord, decodeMem, pickSize]

theorem EncodeRoundTrip.cmpsBMem (d : RegNo) (md : Bool) (s : RegNo) :
    EncodeRoundTrip.Statement (.cmpsBMem d md s) := by
  intro _; cases md <;> simp [encode, memMode, decodeWord, decodeMem, pickSize]

theorem EncodeRoundTrip.cmpsWMem (d : RegNo) (md : Bool) (s : RegNo) :
    EncodeRoundTrip.Statement (.cmpsWMem d md s) := by
  intro _; cases md <;> simp [encode, memMode, decodeWord, decodeMem, pickSize]

theorem EncodeRoundTrip.lslBReg (d : RegNo) (s : RegNo) :
    EncodeRoundTrip.Statement (.lslBReg d s) := by
  intro _; simp [encode, decodeWord, decodeReg, pickSize]

theorem EncodeRoundTrip.lslWReg (d : RegNo) (s : RegNo) :
    EncodeRoundTrip.Statement (.lslWReg d s) := by
  intro _; simp [encode, decodeWord, decodeReg, pickSize]

theorem EncodeRoundTrip.lslDReg (d : RegNo) (s : RegNo) :
    EncodeRoundTrip.Statement (.lslDReg d s) := by
  intro _; simp [encode, decodeWord, decodeReg, pickSize]

theorem EncodeRoundTrip.negBReg (d : RegNo) (s : RegNo) :
    EncodeRoundTrip.Statement (.negBReg d s) := by
  intro _; simp [encode, decodeWord, decodeReg, pickSize]

theorem EncodeRoundTrip.negWReg (d : RegNo) (s : RegNo) :
    EncodeRoundTrip.Statement (.negWReg d s) := by
  intro _; simp [encode, decodeWord, decodeReg, pickSize]

theorem EncodeRoundTrip.negDReg (d : RegNo) (s : RegNo) :
    EncodeRoundTrip.Statement (.negDReg d s) := by
  intro _; simp [encode, decodeWord, decodeReg, pickSize]

theorem EncodeRoundTrip.asrBReg (d : RegNo) (s : RegNo) :
    EncodeRoundTrip.Statement (.asrBReg d s) := by
  intro _; simp [encode, decodeWord, decodeReg, pickSize]

theorem EncodeRoundTrip.asrWReg (d : RegNo) (s : RegNo) :
    EncodeRoundTrip.Statement (.asrWReg d s) := by
  intro _; simp [encode, decodeWord, decodeReg, pickSize]

theorem EncodeRoundTrip.asrDReg (d : RegNo) (s : RegNo) :
    EncodeRoundTrip.Statement (.asrDReg d s) := by
  intro _; simp [encode, decodeWord, decodeReg, pickSize]

theorem EncodeRoundTrip.lsrBReg (d : RegNo) (s : RegNo) :
    EncodeRoundTrip.Statement (.lsrBReg d s) := by
  intro _; simp [encode, decodeWord, decodeReg, pickSize]

theorem EncodeRoundTrip.lsrWReg (d : RegNo) (s : RegNo) :
    EncodeRoundTrip.Statement (.lsrWReg d s) := by
  intro _; simp [encode, decodeWord, decodeReg, pickSize]

theorem EncodeRoundTrip.lsrDReg (d : RegNo) (s : RegNo) :
    EncodeRoundTrip.Statement (.lsrDReg d s) := by
  intro _; simp [encode, decodeWord, decodeReg, pickSize]

theorem EncodeRoundTrip.boundBReg (d : RegNo) (s : RegNo) :
    EncodeRoundTrip.Statement (.boundBReg d s) := by
  intro _; simp [encode, decodeWord, decodeReg, pickSize]

theorem EncodeRoundTrip.boundBMem (d : RegNo) (md : Bool) (s : RegNo) :
    EncodeRoundTrip.Statement (.boundBMem d md s) := by
  intro _; cases md <;> simp [encode, memMode, decodeWord, decodeMem, pickSize]

theorem EncodeRoundTrip.boundWReg (d : RegNo) (s : RegNo) :
    EncodeRoundTrip.Statement (.boundWReg d s) := by
  intro _; simp [encode, decodeWord, decodeReg, pickSize]

theorem EncodeRoundTrip.boundWMem (d : RegNo) (md : Bool) (s : RegNo) :
    EncodeRoundTrip.Statement (.boundWMem d md s) := by
  intro _; cases md <;> simp [encode, memMode, decodeWord, decodeMem, pickSize]

theorem EncodeRoundTrip.boundDReg (d : RegNo) (s : RegNo) :
    EncodeRoundTrip.Statement (.boundDReg d s) := by
  intro _; simp [encode, decodeWord, decodeReg, pickSize]

theorem EncodeRoundTrip.boundDMem (d : RegNo) (md : Bool) (s : RegNo) :
    EncodeRoundTrip.Statement (.boundDMem d md s) := by
  intro _; cases md <;> simp [encode, memMode, decodeWord, decodeMem, pickSize]

theorem EncodeRoundTrip.addBReg (d : RegNo) (s : RegNo) :
    EncodeRoundTrip.Statement (.addBReg d s) := by
  intro _; simp [encode, decodeWord, decodeReg, pickSize]

theorem EncodeRoundTrip.addBMem (d : RegNo) (md : Bool) (s : RegNo) :
    EncodeRoundTrip.Statement (.addBMem d md s) := by
  intro _; cases md <;> simp [encode, memMode, decodeWord, decodeMem, pickSize]

theorem EncodeRoundTrip.addWReg (d : RegNo) (s : RegNo) :
    EncodeRoundTrip.Statement (.addWReg d s) := by
  intro _; simp [encode, decodeWord, decodeReg, pickSize]

theorem EncodeRoundTrip.addWMem (d : RegNo) (md : Bool) (s : RegNo) :
    EncodeRoundTrip.Statement (.addWMem d md s) := by
  intro _; cases md <;> simp [encode, memMode, decodeWord, decodeMem, pickSize]

theorem EncodeRoundTrip.addDReg (d : RegNo) (s : RegNo) :
    EncodeRoundTrip.Statement (.addDReg d s) := by
  intro _; simp [encode, decodeWord, decodeReg, pickSize]

theorem EncodeRoundTrip.addDMem (d : RegNo) (md : Bool) (s : RegNo) :
    EncodeRoundTrip.Statement (.addDMem d md s) := by
  intro _; cases md <;> simp [encode, memMode, decodeWord, decodeMem, pickSize]

theorem EncodeRoundTrip.moveBReg (d : RegNo) (s : RegNo) :
    EncodeRoundTrip.Statement (.moveBReg d s) := by
  intro h; simp_all [WellFormed, encode, decodeWord, decodeReg, decodeMoveReg, pickSize]

theorem EncodeRoundTrip.moveBMem (d : RegNo) (md : Bool) (s : RegNo) :
    EncodeRoundTrip.Statement (.moveBMem d md s) := by
  intro _; cases md <;> simp [encode, memMode, decodeWord, decodeMem, pickSize]

theorem EncodeRoundTrip.moveWReg (d : RegNo) (s : RegNo) :
    EncodeRoundTrip.Statement (.moveWReg d s) := by
  intro h; simp_all [WellFormed, encode, decodeWord, decodeReg, decodeMoveReg, pickSize]

theorem EncodeRoundTrip.moveWMem (d : RegNo) (md : Bool) (s : RegNo) :
    EncodeRoundTrip.Statement (.moveWMem d md s) := by
  intro _; cases md <;> simp [encode, memMode, decodeWord, decodeMem, pickSize]

theorem EncodeRoundTrip.moveDReg (d : RegNo) (s : RegNo) :
    EncodeRoundTrip.Statement (.moveDReg d s) := by
  intro h; simp_all [WellFormed, encode, decodeWord, decodeReg, decodeMoveReg, pickSize]

theorem EncodeRoundTrip.moveDMem (d : RegNo) (md : Bool) (s : RegNo) :
    EncodeRoundTrip.Statement (.moveDMem d md s) := by
  intro h; cases md <;> simp_all [WellFormed, encode, memMode, decodeWord, decodeMem, pickSize]

theorem EncodeRoundTrip.subBReg (d : RegNo) (s : RegNo) :
    EncodeRoundTrip.Statement (.subBReg d s) := by
  intro _; simp [encode, decodeWord, decodeReg, pickSize]

theorem EncodeRoundTrip.subBMem (d : RegNo) (md : Bool) (s : RegNo) :
    EncodeRoundTrip.Statement (.subBMem d md s) := by
  intro _; cases md <;> simp [encode, memMode, decodeWord, decodeMem, pickSize]

theorem EncodeRoundTrip.subWReg (d : RegNo) (s : RegNo) :
    EncodeRoundTrip.Statement (.subWReg d s) := by
  intro _; simp [encode, decodeWord, decodeReg, pickSize]

theorem EncodeRoundTrip.subWMem (d : RegNo) (md : Bool) (s : RegNo) :
    EncodeRoundTrip.Statement (.subWMem d md s) := by
  intro _; cases md <;> simp [encode, memMode, decodeWord, decodeMem, pickSize]

theorem EncodeRoundTrip.subDReg (d : RegNo) (s : RegNo) :
    EncodeRoundTrip.Statement (.subDReg d s) := by
  intro _; simp [encode, decodeWord, decodeReg, pickSize]

theorem EncodeRoundTrip.subDMem (d : RegNo) (md : Bool) (s : RegNo) :
    EncodeRoundTrip.Statement (.subDMem d md s) := by
  intro _; cases md <;> simp [encode, memMode, decodeWord, decodeMem, pickSize]

theorem EncodeRoundTrip.cmpBReg (d : RegNo) (s : RegNo) :
    EncodeRoundTrip.Statement (.cmpBReg d s) := by
  intro _; simp [encode, decodeWord, decodeReg, pickSize]

theorem EncodeRoundTrip.cmpBMem (d : RegNo) (md : Bool) (s : RegNo) :
    EncodeRoundTrip.Statement (.cmpBMem d md s) := by
  intro _; cases md <;> simp [encode, memMode, decodeWord, decodeMem, pickSize]

theorem EncodeRoundTrip.cmpWReg (d : RegNo) (s : RegNo) :
    EncodeRoundTrip.Statement (.cmpWReg d s) := by
  intro _; simp [encode, decodeWord, decodeReg, pickSize]

theorem EncodeRoundTrip.cmpWMem (d : RegNo) (md : Bool) (s : RegNo) :
    EncodeRoundTrip.Statement (.cmpWMem d md s) := by
  intro _; cases md <;> simp [encode, memMode, decodeWord, decodeMem, pickSize]

theorem EncodeRoundTrip.cmpDReg (d : RegNo) (s : RegNo) :
    EncodeRoundTrip.Statement (.cmpDReg d s) := by
  intro _; simp [encode, decodeWord, decodeReg, pickSize]

theorem EncodeRoundTrip.cmpDMem (d : RegNo) (md : Bool) (s : RegNo) :
    EncodeRoundTrip.Statement (.cmpDMem d md s) := by
  intro _; cases md <;> simp [encode, memMode, decodeWord, decodeMem, pickSize]

theorem EncodeRoundTrip.andBReg (d : RegNo) (s : RegNo) :
    EncodeRoundTrip.Statement (.andBReg d s) := by
  intro _; simp [encode, decodeWord, decodeReg, pickSize]

theorem EncodeRoundTrip.andBMem (d : RegNo) (md : Bool) (s : RegNo) :
    EncodeRoundTrip.Statement (.andBMem d md s) := by
  intro _; cases md <;> simp [encode, memMode, decodeWord, decodeMem, pickSize]

theorem EncodeRoundTrip.andWReg (d : RegNo) (s : RegNo) :
    EncodeRoundTrip.Statement (.andWReg d s) := by
  intro _; simp [encode, decodeWord, decodeReg, pickSize]

theorem EncodeRoundTrip.andWMem (d : RegNo) (md : Bool) (s : RegNo) :
    EncodeRoundTrip.Statement (.andWMem d md s) := by
  intro _; cases md <;> simp [encode, memMode, decodeWord, decodeMem, pickSize]

theorem EncodeRoundTrip.andDReg (d : RegNo) (s : RegNo) :
    EncodeRoundTrip.Statement (.andDReg d s) := by
  intro _; simp [encode, decodeWord, decodeReg, pickSize]

theorem EncodeRoundTrip.andDMem (d : RegNo) (md : Bool) (s : RegNo) :
    EncodeRoundTrip.Statement (.andDMem d md s) := by
  intro _; cases md <;> simp [encode, memMode, decodeWord, decodeMem, pickSize]

theorem EncodeRoundTrip.orBReg (d : RegNo) (s : RegNo) :
    EncodeRoundTrip.Statement (.orBReg d s) := by
  intro _; simp [encode, decodeWord, decodeReg, pickSize]

theorem EncodeRoundTrip.orBMem (d : RegNo) (md : Bool) (s : RegNo) :
    EncodeRoundTrip.Statement (.orBMem d md s) := by
  intro _; cases md <;> simp [encode, memMode, decodeWord, decodeMem, pickSize]

theorem EncodeRoundTrip.orWReg (d : RegNo) (s : RegNo) :
    EncodeRoundTrip.Statement (.orWReg d s) := by
  intro _; simp [encode, decodeWord, decodeReg, pickSize]

theorem EncodeRoundTrip.orWMem (d : RegNo) (md : Bool) (s : RegNo) :
    EncodeRoundTrip.Statement (.orWMem d md s) := by
  intro _; cases md <;> simp [encode, memMode, decodeWord, decodeMem, pickSize]

theorem EncodeRoundTrip.orDReg (d : RegNo) (s : RegNo) :
    EncodeRoundTrip.Statement (.orDReg d s) := by
  intro _; simp [encode, decodeWord, decodeReg, pickSize]

theorem EncodeRoundTrip.orDMem (d : RegNo) (md : Bool) (s : RegNo) :
    EncodeRoundTrip.Statement (.orDMem d md s) := by
  intro _; cases md <;> simp [encode, memMode, decodeWord, decodeMem, pickSize]

theorem EncodeRoundTrip.addiB (k : RegNo) (d : RegNo) :
    EncodeRoundTrip.Statement (.addiB k d) := by
  intro h; simp_all [WellFormed, encode, decodeWord, decodeReg, pickSize]; tauto

theorem EncodeRoundTrip.addiW (k : RegNo) (d : RegNo) :
    EncodeRoundTrip.Statement (.addiW k d) := by
  intro _; simp [encode, decodeWord, decodeReg, pickSize]

theorem EncodeRoundTrip.addiD (k : RegNo) (d : RegNo) :
    EncodeRoundTrip.Statement (.addiD k d) := by
  intro _; simp [encode, decodeWord, decodeReg, pickSize]

theorem EncodeRoundTrip.biapB (k : RegNo) (b : RegNo) :
    EncodeRoundTrip.Statement (.biapB k b) := by
  intro _; simp [encode, decodeWord, decodeReg, pickSize]

theorem EncodeRoundTrip.biapW (k : RegNo) (b : RegNo) :
    EncodeRoundTrip.Statement (.biapW k b) := by
  intro _; simp [encode, decodeWord, decodeReg, pickSize]

theorem EncodeRoundTrip.biapD (k : RegNo) (b : RegNo) :
    EncodeRoundTrip.Statement (.biapD k b) := by
  intro _; simp [encode, decodeWord, decodeReg, pickSize]

theorem EncodeRoundTrip.nop :
    EncodeRoundTrip.Statement .nop := by
  intro _; simp [encode, decodeWord, decodeReg, pickSize]

theorem EncodeRoundTrip.btst (d : RegNo) (s : RegNo) :
    EncodeRoundTrip.Statement (.btst d s) := by
  intro _; simp [encode, decodeWord, decodeReg, pickSize]

theorem EncodeRoundTrip.scc (c : Cond) (d : RegNo) :
    EncodeRoundTrip.Statement (.scc c d) := by
  intro _; simp [encode, decodeWord, decodeReg, pickSize]

theorem EncodeRoundTrip.setf (k : BitVec 8) :
    EncodeRoundTrip.Statement (.setf k) := by
  intro h; simp_all [WellFormed, encode, decodeWord, decodeReg, decodeSetf, pickSize]

theorem EncodeRoundTrip.clearf (k : BitVec 8) :
    EncodeRoundTrip.Statement (.clearf k) := by
  intro h; simp_all [WellFormed, encode, decodeWord, decodeReg, pickSize]

theorem EncodeRoundTrip.moveToSpecial (p : SReg) (s : RegNo) :
    EncodeRoundTrip.Statement (.moveToSpecial p s) := by
  intro _; simp [encode, decodeWord, decodeReg, pickSize]

theorem EncodeRoundTrip.moveFromSpecial (p : SReg) (d : RegNo) :
    EncodeRoundTrip.Statement (.moveFromSpecial p d) := by
  intro h
  cases p <;> simp_all [WellFormed, encode, decodeWord, decodeReg, decodeFromSpecial, pickSize]

theorem EncodeRoundTrip.abs (d : RegNo) (s : RegNo) :
    EncodeRoundTrip.Statement (.abs d s) := by
  intro _; simp [encode, decodeWord, decodeReg, pickSize]

theorem EncodeRoundTrip.dstep (d : RegNo) (s : RegNo) :
    EncodeRoundTrip.Statement (.dstep d s) := by
  intro _; simp [encode, decodeWord, decodeReg, pickSize]

theorem EncodeRoundTrip.lz (d : RegNo) (s : RegNo) :
    EncodeRoundTrip.Statement (.lz d s) := by
  intro _; simp [encode, decodeWord, decodeReg, pickSize]

theorem EncodeRoundTrip.swap (o : BitVec 4) (d : RegNo) :
    EncodeRoundTrip.Statement (.swap o d) := by
  intro h; simp_all [WellFormed, encode, decodeWord, decodeReg, pickSize]

theorem EncodeRoundTrip.xor (d : RegNo) (s : RegNo) :
    EncodeRoundTrip.Statement (.xor d s) := by
  intro _; simp [encode, decodeWord, decodeReg, pickSize]

theorem EncodeRoundTrip.mstep (d : RegNo) (s : RegNo) :
    EncodeRoundTrip.Statement (.mstep d s) := by
  intro _; simp [encode, decodeWord, decodeReg, pickSize]

theorem EncodeRoundTrip.mulsB (d : RegNo) (s : RegNo) :
    EncodeRoundTrip.Statement (.mulsB d s) := by
  intro _; simp [encode, decodeWord, decodeMem, pickSize]

theorem EncodeRoundTrip.mulsW (d : RegNo) (s : RegNo) :
    EncodeRoundTrip.Statement (.mulsW d s) := by
  intro _; simp [encode, decodeWord, decodeMem, pickSize]

theorem EncodeRoundTrip.mulsD (d : RegNo) (s : RegNo) :
    EncodeRoundTrip.Statement (.mulsD d s) := by
  intro _; simp [encode, decodeWord, decodeMem, pickSize]

theorem EncodeRoundTrip.muluB (d : RegNo) (s : RegNo) :
    EncodeRoundTrip.Statement (.muluB d s) := by
  intro _; simp [encode, decodeWord, decodeMem, pickSize]

theorem EncodeRoundTrip.muluW (d : RegNo) (s : RegNo) :
    EncodeRoundTrip.Statement (.muluW d s) := by
  intro _; simp [encode, decodeWord, decodeMem, pickSize]

theorem EncodeRoundTrip.muluD (d : RegNo) (s : RegNo) :
    EncodeRoundTrip.Statement (.muluD d s) := by
  intro _; simp [encode, decodeWord, decodeMem, pickSize]

theorem EncodeRoundTrip.bdapB (b : RegNo) (md : Bool) (s : RegNo) :
    EncodeRoundTrip.Statement (.bdapB b md s) := by
  intro _; cases md <;> simp [encode, memMode, decodeWord, decodeMem, pickSize]

theorem EncodeRoundTrip.bdapW (b : RegNo) (md : Bool) (s : RegNo) :
    EncodeRoundTrip.Statement (.bdapW b md s) := by
  intro _; cases md <;> simp [encode, memMode, decodeWord, decodeMem, pickSize]

theorem EncodeRoundTrip.bdapD (b : RegNo) (md : Bool) (s : RegNo) :
    EncodeRoundTrip.Statement (.bdapD b md s) := by
  intro _; cases md <;> simp [encode, memMode, decodeWord, decodeMem, pickSize]

theorem EncodeRoundTrip.testBMem (md : Bool) (s : RegNo) :
    EncodeRoundTrip.Statement (.testBMem md s) := by
  intro _; cases md <;> simp [encode, memMode, decodeWord, decodeMem, pickSize]

theorem EncodeRoundTrip.testWMem (md : Bool) (s : RegNo) :
    EncodeRoundTrip.Statement (.testWMem md s) := by
  intro _; cases md <;> simp [encode, memMode, decodeWord, decodeMem, pickSize]

theorem EncodeRoundTrip.testDMem (md : Bool) (s : RegNo) :
    EncodeRoundTrip.Statement (.testDMem md s) := by
  intro _; cases md <;> simp [encode, memMode, decodeWord, decodeMem, pickSize]

theorem EncodeRoundTrip.moveBStore (s : RegNo) (md : Bool) (d : RegNo) :
    EncodeRoundTrip.Statement (.moveBStore s md d) := by
  intro _; cases md <;> simp [encode, memMode, decodeWord, decodeMem, pickSize]

theorem EncodeRoundTrip.moveWStore (s : RegNo) (md : Bool) (d : RegNo) :
    EncodeRoundTrip.Statement (.moveWStore s md d) := by
  intro _; cases md <;> simp [encode, memMode, decodeWord, decodeMem, pickSize]

theorem EncodeRoundTrip.moveDStore (s : RegNo) (md : Bool) (d : RegNo) :
    EncodeRoundTrip.Statement (.moveDStore s md d) := by
  intro h; cases md <;> simp_all [WellFormed, encode, memMode, decodeWord, decodeMem, pickSize]

theorem EncodeRoundTrip.jump (md : Bool) (s : RegNo) :
    EncodeRoundTrip.Statement (.jump md s) := by
  intro _; cases md <;> simp [encode, memMode, decodeWord, decodeMem, decodeJumpMem, pickSize]

theorem EncodeRoundTrip.jumpReg (s : RegNo) :
    EncodeRoundTrip.Statement (.jumpReg s) := by
  intro _; simp [encode, decodeWord, decodeMem, decodeJumpReg, pickSize]

theorem EncodeRoundTrip.jirc (md : Bool) (s : RegNo) :
    EncodeRoundTrip.Statement (.jirc md s) := by
  intro _; cases md <;> simp [encode, memMode, decodeWord, decodeMem, decodeJumpMem, pickSize]

theorem EncodeRoundTrip.jircReg (s : RegNo) :
    EncodeRoundTrip.Statement (.jircReg s) := by
  intro _; simp [encode, decodeWord, decodeMem, decodeJumpReg, pickSize]

theorem EncodeRoundTrip.jsrc (md : Bool) (s : RegNo) :
    EncodeRoundTrip.Statement (.jsrc md s) := by
  intro _; cases md <;> simp [encode, memMode, decodeWord, decodeMem, decodeJumpMem, pickSize]

theorem EncodeRoundTrip.jsrcReg (s : RegNo) :
    EncodeRoundTrip.Statement (.jsrcReg s) := by
  intro _; simp [encode, decodeWord, decodeMem, decodeJumpReg, pickSize]

theorem EncodeRoundTrip.jbrc (md : Bool) (s : RegNo) :
    EncodeRoundTrip.Statement (.jbrc md s) := by
  intro _; cases md <;> simp [encode, memMode, decodeWord, decodeMem, decodeJumpMem, pickSize]

theorem EncodeRoundTrip.jbrcReg (s : RegNo) :
    EncodeRoundTrip.Statement (.jbrcReg s) := by
  intro _; simp [encode, decodeWord, decodeMem, decodeJumpReg, pickSize]

theorem EncodeRoundTrip.jmpu (md : Bool) (s : RegNo) :
    EncodeRoundTrip.Statement (.jmpu md s) := by
  intro _; cases md <;> simp [encode, memMode, decodeWord, decodeMem, decodeJumpMem, pickSize]

theorem EncodeRoundTrip.jir (md : Bool) (s : RegNo) :
    EncodeRoundTrip.Statement (.jir md s) := by
  intro _; cases md <;> simp [encode, memMode, decodeWord, decodeMem, decodeJumpMem, pickSize]

theorem EncodeRoundTrip.jirReg (s : RegNo) :
    EncodeRoundTrip.Statement (.jirReg s) := by
  intro _; simp [encode, decodeWord, decodeMem, decodeJumpReg, pickSize]

theorem EncodeRoundTrip.jsr (md : Bool) (s : RegNo) :
    EncodeRoundTrip.Statement (.jsr md s) := by
  intro _; cases md <;> simp [encode, memMode, decodeWord, decodeMem, decodeJumpMem, pickSize]

theorem EncodeRoundTrip.jsrReg (s : RegNo) :
    EncodeRoundTrip.Statement (.jsrReg s) := by
  intro _; simp [encode, decodeWord, decodeMem, decodeJumpReg, pickSize]

theorem EncodeRoundTrip.breakN (n : BitVec 4) :
    EncodeRoundTrip.Statement (.breakN n) := by
  intro _; simp [encode, decodeWord, decodeMem, decodeJumpMem, pickSize]

theorem EncodeRoundTrip.dip (md : Bool) (s : RegNo) :
    EncodeRoundTrip.Statement (.dip md s) := by
  intro _; cases md <;> simp [encode, memMode, decodeWord, decodeMem, pickSize]

theorem EncodeRoundTrip.bcc16 (c : Cond) :
    EncodeRoundTrip.Statement (.bcc16 c) := by
  intro _; simp [encode, decodeWord, decodeMem, pickSize]

theorem EncodeRoundTrip.moveToSpecialMem (p : SReg) (md : Bool) (s : RegNo) :
    EncodeRoundTrip.Statement (.moveToSpecialMem p md s) := by
  intro h; cases md <;> simp_all [WellFormed, encode, memMode, decodeWord, decodeMem, pickSize]

theorem EncodeRoundTrip.moveFromSpecialMem (p : SReg) (md : Bool) (d : RegNo) :
    EncodeRoundTrip.Statement (.moveFromSpecialMem p md d) := by
  intro h
  cases md <;> cases p <;>
    simp_all [WellFormed, encode, memMode, decodeWord, decodeMem, decodeFromSpecialMem, pickSize]

theorem EncodeRoundTrip.rbf (md : Bool) (s : RegNo) :
    EncodeRoundTrip.Statement (.rbf md s) := by
  intro _; cases md <;> simp [encode, memMode, decodeWord, decodeMem, pickSize]

theorem EncodeRoundTrip.sbfs (md : Bool) (d : RegNo) :
    EncodeRoundTrip.Statement (.sbfs md d) := by
  intro _; cases md <;> simp [encode, memMode, decodeWord, decodeMem, pickSize]

theorem EncodeRoundTrip.movemLoad (d : RegNo) (md : Bool) (s : RegNo) :
    EncodeRoundTrip.Statement (.movemLoad d md s) := by
  intro _; cases md <;> simp [encode, memMode, decodeWord, decodeMem]

theorem EncodeRoundTrip.movemStore (s : RegNo) (md : Bool) (d : RegNo) :
    EncodeRoundTrip.Statement (.movemStore s md d) := by
  intro _; cases md <;> simp [encode, memMode, decodeWord, decodeMem, pickSize]

theorem EncodeRoundTrip.clearBReg (d : RegNo) :
    EncodeRoundTrip.Statement (.clearBReg d) := by
  intro _; simp [encode, decodeWord, decodeReg, decodeFromSpecial, pickSize,
    show SReg.ofCode 0#4 = .p0 from rfl]

theorem EncodeRoundTrip.clearBMem (md : Bool) (d : RegNo) :
    EncodeRoundTrip.Statement (.clearBMem md d) := by
  intro h; cases md <;> simp_all [WellFormed, encode, memMode, decodeWord, decodeMem, decodeFromSpecialMem, pickSize,
    show SReg.ofCode 0#4 = .p0 from rfl]

theorem EncodeRoundTrip.clearWReg (d : RegNo) :
    EncodeRoundTrip.Statement (.clearWReg d) := by
  intro _; simp [encode, decodeWord, decodeReg, decodeFromSpecial, pickSize,
    show SReg.ofCode 4#4 = .p4 from rfl]

theorem EncodeRoundTrip.clearWMem (md : Bool) (d : RegNo) :
    EncodeRoundTrip.Statement (.clearWMem md d) := by
  intro h; cases md <;> simp_all [WellFormed, encode, memMode, decodeWord, decodeMem, decodeFromSpecialMem, pickSize,
    show SReg.ofCode 4#4 = .p4 from rfl]

theorem EncodeRoundTrip.clearDReg (d : RegNo) :
    EncodeRoundTrip.Statement (.clearDReg d) := by
  intro _; simp [encode, decodeWord, decodeReg, decodeFromSpecial, pickSize,
    show SReg.ofCode 8#4 = .p8 from rfl]

theorem EncodeRoundTrip.clearDMem (md : Bool) (d : RegNo) :
    EncodeRoundTrip.Statement (.clearDMem md d) := by
  intro h; cases md <;> simp_all [WellFormed, encode, memMode, decodeWord, decodeMem, decodeFromSpecialMem, pickSize,
    show SReg.ofCode 8#4 = .p8 from rfl]

theorem EncodeRoundTrip.ret :
    EncodeRoundTrip.Statement .ret := by
  intro _; simp [encode, decodeWord, decodeReg, decodeFromSpecial, pickSize,
    show SReg.ofCode 11#4 = .srp from rfl]

theorem EncodeRoundTrip.retb :
    EncodeRoundTrip.Statement .retb := by
  intro _; simp [encode, decodeWord, decodeReg, decodeFromSpecial, pickSize,
    show SReg.ofCode 14#4 = .brp from rfl]

theorem EncodeRoundTrip.reti :
    EncodeRoundTrip.Statement .reti := by
  intro _; simp [encode, decodeWord, decodeReg, decodeFromSpecial, pickSize,
    show SReg.ofCode 10#4 = .irp from rfl]

theorem EncodeRoundTrip.notReg (d : RegNo) :
    EncodeRoundTrip.Statement (.notReg d) := by
  intro _; simp [encode, decodeWord, decodeReg, pickSize]

theorem EncodeRoundTrip.ax :
    EncodeRoundTrip.Statement .ax := by
  intro _; simp [encode, decodeWord, decodeReg, decodeSetf, pickSize]

theorem EncodeRoundTrip.ei :
    EncodeRoundTrip.Statement .ei := by
  intro _; simp [encode, decodeWord, decodeReg, decodeSetf, pickSize]

theorem EncodeRoundTrip.di :
    EncodeRoundTrip.Statement .di := by
  intro _; simp [encode, decodeWord, decodeReg, pickSize]

theorem EncodeRoundTrip.popReg (d : RegNo) :
    EncodeRoundTrip.Statement (.popReg d) := by
  intro _; simp [encode, decodeWord, decodeMem, pickSize]

theorem EncodeRoundTrip.popSpecial (p : SReg) :
    EncodeRoundTrip.Statement (.popSpecial p) := by
  intro _; simp [encode, decodeWord, decodeMem, pickSize]

theorem EncodeRoundTrip.pushReg (s : RegNo) :
    EncodeRoundTrip.Statement (.pushReg s) := by
  intro _; simp [encode, decodeWord, decodeMem, pickSize]

theorem EncodeRoundTrip.pushSpecial (p : SReg) :
    EncodeRoundTrip.Statement (.pushSpecial p) := by
  intro _; simp [encode, decodeWord, decodeMem, decodeFromSpecialMem, pickSize]

theorem EncodeRoundTrip.testBReg (s : RegNo) :
    EncodeRoundTrip.Statement (.testBReg s) := by
  intro _; simp [encode, decodeWord, decodeReg, decodeMoveReg, pickSize]

theorem EncodeRoundTrip.testWReg (s : RegNo) :
    EncodeRoundTrip.Statement (.testWReg s) := by
  intro _; simp [encode, decodeWord, decodeReg, decodeMoveReg, pickSize]

theorem EncodeRoundTrip.testDReg (s : RegNo) :
    EncodeRoundTrip.Statement (.testDReg s) := by
  intro _; simp [encode, decodeWord, decodeReg, decodeMoveReg, pickSize]

theorem EncodeRoundTrip.reserved (w : Half) :
    EncodeRoundTrip.Statement (.reserved w) := by
  intro h
  exact decode_reserved h

theorem EncodeRoundTrip.unlisted (w : Half) :
    EncodeRoundTrip.Statement (.unlisted w) := by
  intro h
  exact decode_unlisted h

theorem EncodeRoundTrip.tableNote :
    EncodeRoundTrip.Statement .tableNote := by
  intro h; simp [WellFormed] at h

end Sys2Proof.Laws
end

