-- ==== Sys2Proof/Tests/Slice0.lean ====
section
/-! SUPPORT. Sys2Proof/Tests/Slice0.lean: ill-formed terms are refused, words written out from the spec's encodings decode,
single steps give what the spec's worked vectors say, and every statement's hypotheses are met by a state. -/

set_option Elab.async false

namespace Sys2Proof.Tests

open Sys2Proof.Machine Sys2Proof.Laws

/-! ## WellFormed refuses -/

theorem test_ill_formed_moves_of_a_register_to_itself_are_tests :
    [(.moveBReg 3#4 3#4 : Instr), .moveWReg 3#4 3#4, .moveDReg 3#4 3#4].all (fun i => !WellFormed i) = true := by decide

theorem test_ill_formed_addi_that_encodes_nop :
    [(.addiB 0#4 15#4 : Instr)].all (fun i => !WellFormed i) = true := by decide

theorem test_ill_formed_flag_masks_of_ax_ei_di :
    [(.setf 0x10#8 : Instr), .setf 0x20#8, .clearf 0x20#8].all (fun i => !WellFormed i) = true := by decide

theorem test_ill_formed_zero_register_sources_are_clear :
    [(.moveFromSpecial .p0 3#4 : Instr), .moveFromSpecial .p4 3#4, .moveFromSpecial .p8 3#4, .moveFromSpecialMem .p0 false 3#4, .moveFromSpecialMem .p4 true 3#4, .moveFromSpecialMem .p8 false 3#4].all (fun i => !WellFormed i) = true := by decide

theorem test_ill_formed_return_pointers_to_pc_are_returns :
    [(.moveFromSpecial .srp 15#4 : Instr), .moveFromSpecial .brp 15#4, .moveFromSpecial .irp 15#4].all (fun i => !WellFormed i) = true := by decide

theorem test_ill_formed_swap_with_mask_n_is_not :
    [(.swap 8#4 3#4 : Instr)].all (fun i => !WellFormed i) = true := by decide

theorem test_ill_formed_stack_forms_are_push_and_pop :
    [(.moveDMem 3#4 true 14#4 : Instr), .moveDStore 3#4 true 14#4, .moveToSpecialMem .srp true 14#4, .moveFromSpecialMem .srp true 14#4, .clearBMem true 14#4, .clearWMem true 14#4, .clearDMem true 14#4].all (fun i => !WellFormed i) = true := by decide

theorem test_ill_formed_reserved_and_unlisted_hold_only_such_words :
    [(.reserved 0x050F#16 : Instr), .unlisted 0x050F#16, .reserved 0x1D30#16, .unlisted 0x0570#16].all (fun i => !WellFormed i) = true := by decide

theorem test_ill_formed_the_table_note :
    [(.tableNote : Instr)].all (fun i => !WellFormed i) = true := by decide

/-! ## Words written out bit by bit from the encodings of 30_encoding.md decode to their instructions -/

theorem test_decode_quick :
    decodeWord 0b0110_00_0010_11_0101#16 = (.bcc .pl 181#8) ∧
    decodeWord 0b1001_00_0110_11_0101#16 = (.bdapByte 9#4 181#8) ∧
    decodeWord 0b0010_00_1000_10_1101#16 = (.addq 2#4 45#6) ∧
    decodeWord 0b0010_00_1001_11_0010#16 = (.moveq 2#4 50#6) ∧
    decodeWord 0b0010_00_1010_10_1101#16 = (.subq 2#4 45#6) ∧
    decodeWord 0b0010_00_1011_11_0010#16 = (.cmpq 2#4 50#6) ∧
    decodeWord 0b0010_00_1100_11_0010#16 = (.andq 2#4 50#6) ∧
    decodeWord 0b0010_00_1101_11_0010#16 = (.orq 2#4 50#6) ∧
    decodeWord 0b0010_00_1110_01_0011#16 = (.btstq 2#4 19#5) ∧
    decodeWord 0b0010_00_1110_11_0011#16 = (.asrq 2#4 19#5) ∧
    decodeWord 0b0010_00_1111_01_0011#16 = (.lslq 2#4 19#5) ∧
    decodeWord 0b0010_00_1111_11_0011#16 = (.lsrq 2#4 19#5) := by decide

theorem test_decode_register_1 :
    decodeWord 0b0010_01_0000_00_0101#16 = (.adduBReg 2#4 5#4) ∧
    decodeWord 0b0010_01_0000_01_0101#16 = (.adduWReg 2#4 5#4) ∧
    decodeWord 0b0010_01_0000_10_0101#16 = (.addsBReg 2#4 5#4) ∧
    decodeWord 0b0010_01_0000_11_0101#16 = (.addsWReg 2#4 5#4) ∧
    decodeWord 0b0010_01_0001_00_0101#16 = (.movuBReg 2#4 5#4) ∧
    decodeWord 0b0010_01_0001_01_0101#16 = (.movuWReg 2#4 5#4) ∧
    decodeWord 0b0010_01_0001_10_0101#16 = (.movsBReg 2#4 5#4) ∧
    decodeWord 0b0010_01_0001_11_0101#16 = (.movsWReg 2#4 5#4) ∧
    decodeWord 0b0010_01_0010_00_0101#16 = (.subuBReg 2#4 5#4) ∧
    decodeWord 0b0010_01_0010_01_0101#16 = (.subuWReg 2#4 5#4) ∧
    decodeWord 0b0010_01_0010_10_0101#16 = (.subsBReg 2#4 5#4) ∧
    decodeWord 0b0010_01_0010_11_0101#16 = (.subsWReg 2#4 5#4) ∧
    decodeWord 0b0010_01_0011_00_0101#16 = (.lslBReg 2#4 5#4) ∧
    decodeWord 0b0010_01_0011_01_0101#16 = (.lslWReg 2#4 5#4) ∧
    decodeWord 0b0010_01_0011_10_0101#16 = (.lslDReg 2#4 5#4) ∧
    decodeWord 0b0010_01_0110_00_0101#16 = (.negBReg 2#4 5#4) ∧
    decodeWord 0b0010_01_0110_01_0101#16 = (.negWReg 2#4 5#4) ∧
    decodeWord 0b0010_01_0110_10_0101#16 = (.negDReg 2#4 5#4) ∧
    decodeWord 0b0010_01_1110_00_0101#16 = (.asrBReg 2#4 5#4) ∧
    decodeWord 0b0010_01_1110_01_0101#16 = (.asrWReg 2#4 5#4) ∧
    decodeWord 0b0010_01_1110_10_0101#16 = (.asrDReg 2#4 5#4) ∧
    decodeWord 0b0010_01_1111_00_0101#16 = (.lsrBReg 2#4 5#4) ∧
    decodeWord 0b0010_01_1111_01_0101#16 = (.lsrWReg 2#4 5#4) ∧
    decodeWord 0b0010_01_1111_10_0101#16 = (.lsrDReg 2#4 5#4) ∧
    decodeWord 0b0010_01_0111_00_0101#16 = (.boundBReg 2#4 5#4) ∧
    decodeWord 0b0010_01_0111_01_0101#16 = (.boundWReg 2#4 5#4) ∧
    decodeWord 0b0010_01_0111_10_0101#16 = (.boundDReg 2#4 5#4) ∧
    decodeWord 0b0010_01_1000_00_0101#16 = (.addBReg 2#4 5#4) ∧
    decodeWord 0b0010_01_1000_01_0101#16 = (.addWReg 2#4 5#4) ∧
    decodeWord 0b0010_01_1000_10_0101#16 = (.addDReg 2#4 5#4) := by decide

theorem test_decode_register_2 :
    decodeWord 0b0010_01_1001_00_0101#16 = (.moveBReg 2#4 5#4) ∧
    decodeWord 0b0010_01_1001_01_0101#16 = (.moveWReg 2#4 5#4) ∧
    decodeWord 0b0010_01_1001_10_0101#16 = (.moveDReg 2#4 5#4) ∧
    decodeWord 0b0010_01_1010_00_0101#16 = (.subBReg 2#4 5#4) ∧
    decodeWord 0b0010_01_1010_01_0101#16 = (.subWReg 2#4 5#4) ∧
    decodeWord 0b0010_01_1010_10_0101#16 = (.subDReg 2#4 5#4) ∧
    decodeWord 0b0010_01_1011_00_0101#16 = (.cmpBReg 2#4 5#4) ∧
    decodeWord 0b0010_01_1011_01_0101#16 = (.cmpWReg 2#4 5#4) ∧
    decodeWord 0b0010_01_1011_10_0101#16 = (.cmpDReg 2#4 5#4) ∧
    decodeWord 0b0010_01_1100_00_0101#16 = (.andBReg 2#4 5#4) ∧
    decodeWord 0b0010_01_1100_01_0101#16 = (.andWReg 2#4 5#4) ∧
    decodeWord 0b0010_01_1100_10_0101#16 = (.andDReg 2#4 5#4) ∧
    decodeWord 0b0010_01_1101_00_0101#16 = (.orBReg 2#4 5#4) ∧
    decodeWord 0b0010_01_1101_01_0101#16 = (.orWReg 2#4 5#4) ∧
    decodeWord 0b0010_01_1101_10_0101#16 = (.orDReg 2#4 5#4) := by decide

theorem test_decode_memory_1 :
    decodeWord 0b0010_11_0000_00_0101#16 = (.adduBMem 2#4 true 5#4) ∧
    decodeWord 0b0010_11_0000_01_0101#16 = (.adduWMem 2#4 true 5#4) ∧
    decodeWord 0b0010_11_0000_10_0101#16 = (.addsBMem 2#4 true 5#4) ∧
    decodeWord 0b0010_11_0000_11_0101#16 = (.addsWMem 2#4 true 5#4) ∧
    decodeWord 0b0010_11_0001_00_0101#16 = (.movuBMem 2#4 true 5#4) ∧
    decodeWord 0b0010_11_0001_01_0101#16 = (.movuWMem 2#4 true 5#4) ∧
    decodeWord 0b0010_11_0001_10_0101#16 = (.movsBMem 2#4 true 5#4) ∧
    decodeWord 0b0010_11_0001_11_0101#16 = (.movsWMem 2#4 true 5#4) ∧
    decodeWord 0b0010_11_0010_00_0101#16 = (.subuBMem 2#4 true 5#4) ∧
    decodeWord 0b0010_11_0010_01_0101#16 = (.subuWMem 2#4 true 5#4) ∧
    decodeWord 0b0010_11_0010_10_0101#16 = (.subsBMem 2#4 true 5#4) ∧
    decodeWord 0b0010_11_0010_11_0101#16 = (.subsWMem 2#4 true 5#4) ∧
    decodeWord 0b0010_10_0011_00_0101#16 = (.cmpuBMem 2#4 false 5#4) ∧
    decodeWord 0b0010_11_0011_01_0101#16 = (.cmpuWMem 2#4 true 5#4) ∧
    decodeWord 0b0010_10_0011_10_0101#16 = (.cmpsBMem 2#4 false 5#4) ∧
    decodeWord 0b0010_11_0011_11_0101#16 = (.cmpsWMem 2#4 true 5#4) ∧
    decodeWord 0b0010_11_0111_00_0101#16 = (.boundBMem 2#4 true 5#4) ∧
    decodeWord 0b0010_11_0111_01_0101#16 = (.boundWMem 2#4 true 5#4) ∧
    decodeWord 0b0010_11_0111_10_0101#16 = (.boundDMem 2#4 true 5#4) ∧
    decodeWord 0b0010_11_1000_00_0101#16 = (.addBMem 2#4 true 5#4) ∧
    decodeWord 0b0010_11_1000_01_0101#16 = (.addWMem 2#4 true 5#4) ∧
    decodeWord 0b0010_11_1000_10_0101#16 = (.addDMem 2#4 true 5#4) ∧
    decodeWord 0b0010_11_1001_00_0101#16 = (.moveBMem 2#4 true 5#4) ∧
    decodeWord 0b0010_11_1001_01_0101#16 = (.moveWMem 2#4 true 5#4) ∧
    decodeWord 0b0010_11_1001_10_0101#16 = (.moveDMem 2#4 true 5#4) ∧
    decodeWord 0b0010_11_1010_00_0101#16 = (.subBMem 2#4 true 5#4) ∧
    decodeWord 0b0010_11_1010_01_0101#16 = (.subWMem 2#4 true 5#4) ∧
    decodeWord 0b0010_11_1010_10_0101#16 = (.subDMem 2#4 true 5#4) ∧
    decodeWord 0b0010_11_1011_00_0101#16 = (.cmpBMem 2#4 true 5#4) ∧
    decodeWord 0b0010_11_1011_01_0101#16 = (.cmpWMem 2#4 true 5#4) := by decide

theorem test_decode_memory_2 :
    decodeWord 0b0010_11_1011_10_0101#16 = (.cmpDMem 2#4 true 5#4) ∧
    decodeWord 0b0010_11_1100_00_0101#16 = (.andBMem 2#4 true 5#4) ∧
    decodeWord 0b0010_11_1100_01_0101#16 = (.andWMem 2#4 true 5#4) ∧
    decodeWord 0b0010_11_1100_10_0101#16 = (.andDMem 2#4 true 5#4) ∧
    decodeWord 0b0010_11_1101_00_0101#16 = (.orBMem 2#4 true 5#4) ∧
    decodeWord 0b0010_11_1101_01_0101#16 = (.orWMem 2#4 true 5#4) ∧
    decodeWord 0b0010_11_1101_10_0101#16 = (.orDMem 2#4 true 5#4) ∧
    decodeWord 0b1001_11_0101_00_0101#16 = (.bdapB 9#4 true 5#4) ∧
    decodeWord 0b1001_10_0101_01_0101#16 = (.bdapW 9#4 false 5#4) ∧
    decodeWord 0b1001_11_0101_10_0101#16 = (.bdapD 9#4 true 5#4) ∧
    decodeWord 0b0101_11_1111_00_0010#16 = (.moveBStore 5#4 true 2#4) ∧
    decodeWord 0b0101_10_1111_01_0010#16 = (.moveWStore 5#4 false 2#4) ∧
    decodeWord 0b0101_11_1111_10_0010#16 = (.moveDStore 5#4 true 2#4) := by decide

theorem test_decode_fixed_size :
    decodeWord 0b1011_01_0100_00_0010#16 = (.addiB 11#4 2#4) ∧
    decodeWord 0b1011_01_0100_01_0010#16 = (.addiW 11#4 2#4) ∧
    decodeWord 0b1011_01_0100_10_0010#16 = (.addiD 11#4 2#4) ∧
    decodeWord 0b1011_01_0101_00_1001#16 = (.biapB 11#4 9#4) ∧
    decodeWord 0b1011_01_0101_01_1001#16 = (.biapW 11#4 9#4) ∧
    decodeWord 0b1011_01_0101_10_1001#16 = (.biapD 11#4 9#4) ∧
    decodeWord 0b0000_01_0100_00_1111#16 = .nop ∧
    decodeWord 0b0010_01_0011_11_0101#16 = (.btst 2#4 5#4) ∧
    decodeWord 0b0110_01_0100_11_0010#16 = (.scc .pl 2#4) ∧
    decodeWord 0b1001_01_0110_11_0110#16 = (.setf 150#8) ∧
    decodeWord 0b1001_01_0111_11_0110#16 = (.clearf 150#8) ∧
    decodeWord 0b1011_01_1000_11_0101#16 = (.moveToSpecial .srp 5#4) ∧
    decodeWord 0b1011_01_1001_11_0010#16 = (.moveFromSpecial .srp 2#4) ∧
    decodeWord 0b0010_01_1010_11_0101#16 = (.abs 2#4 5#4) ∧
    decodeWord 0b0010_01_1011_11_0101#16 = (.dstep 2#4 5#4) ∧
    decodeWord 0b0010_01_1100_11_0101#16 = (.lz 2#4 5#4) ∧
    decodeWord 0b1010_01_1101_11_0010#16 = (.swap 10#4 2#4) ∧
    decodeWord 0b0010_01_1110_11_0101#16 = (.xor 2#4 5#4) ∧
    decodeWord 0b0010_01_1111_11_0101#16 = (.mstep 2#4 5#4) ∧
    decodeWord 0b0010_10_0100_00_0101#16 = (.mulsB 2#4 5#4) ∧
    decodeWord 0b0010_10_0100_01_0101#16 = (.mulsW 2#4 5#4) ∧
    decodeWord 0b0010_10_0100_10_0101#16 = (.mulsD 2#4 5#4) ∧
    decodeWord 0b0010_11_0100_00_0101#16 = (.muluB 2#4 5#4) ∧
    decodeWord 0b0010_11_0100_01_0101#16 = (.muluW 2#4 5#4) ∧
    decodeWord 0b0010_11_0100_10_0101#16 = (.muluD 2#4 5#4) := by decide

theorem test_decode_macros :
    decodeWord 0b0000_10_1110_00_0101#16 = (.testBMem false 5#4) ∧
    decodeWord 0b0000_11_1110_01_0101#16 = (.testWMem true 5#4) ∧
    decodeWord 0b0000_10_1110_10_0101#16 = (.testDMem false 5#4) ∧
    decodeWord 0b0000_01_1001_11_0010#16 = (.clearBReg 2#4) ∧
    decodeWord 0b0000_11_1001_11_0010#16 = (.clearBMem true 2#4) ∧
    decodeWord 0b0100_01_1001_11_0010#16 = (.clearWReg 2#4) ∧
    decodeWord 0b0100_11_1001_11_0010#16 = (.clearWMem true 2#4) ∧
    decodeWord 0b1000_01_1001_11_0010#16 = (.clearDReg 2#4) ∧
    decodeWord 0b1000_11_1001_11_0010#16 = (.clearDMem true 2#4) ∧
    decodeWord 0b1011_01_1001_11_1111#16 = .ret ∧
    decodeWord 0b1110_01_1001_11_1111#16 = .retb ∧
    decodeWord 0b1010_01_1001_11_1111#16 = .reti ∧
    decodeWord 0b1000_01_1101_11_0010#16 = (.notReg 2#4) ∧
    decodeWord 0b0001_01_0110_11_0000#16 = .ax ∧
    decodeWord 0b0010_01_0110_11_0000#16 = .ei ∧
    decodeWord 0b0010_01_0111_11_0000#16 = .di ∧
    decodeWord 0b0010_11_1001_10_1110#16 = (.popReg 2#4) ∧
    decodeWord 0b1011_11_1000_11_1110#16 = (.popSpecial .srp) ∧
    decodeWord 0b0101_11_1111_10_1110#16 = (.pushReg 5#4) ∧
    decodeWord 0b1011_11_1001_11_1110#16 = (.pushSpecial .srp) ∧
    decodeWord 0b0101_01_1001_00_0101#16 = (.testBReg 5#4) ∧
    decodeWord 0b0101_01_1001_01_0101#16 = (.testWReg 5#4) ∧
    decodeWord 0b0101_01_1001_10_0101#16 = (.testDReg 5#4) := by decide

theorem test_decode_system_and_jump :
    decodeWord 0b0000_10_0100_11_0101#16 = (.jump false 5#4) ∧
    decodeWord 0b0000_10_0110_11_0101#16 = (.jumpReg 5#4) ∧
    decodeWord 0b0010_10_0100_11_0101#16 = (.jirc false 5#4) ∧
    decodeWord 0b0010_10_0110_11_0101#16 = (.jircReg 5#4) ∧
    decodeWord 0b0011_10_0100_11_0101#16 = (.jsrc false 5#4) ∧
    decodeWord 0b0011_10_0110_11_0101#16 = (.jsrcReg 5#4) ∧
    decodeWord 0b0110_10_0100_11_0101#16 = (.jbrc false 5#4) ∧
    decodeWord 0b0110_10_0110_11_0101#16 = (.jbrcReg 5#4) ∧
    decodeWord 0b1000_10_0100_11_0101#16 = (.jmpu false 5#4) ∧
    decodeWord 0b1010_11_0100_11_0101#16 = (.jir true 5#4) ∧
    decodeWord 0b1010_10_0110_11_0101#16 = (.jirReg 5#4) ∧
    decodeWord 0b1011_11_0100_11_0101#16 = (.jsr true 5#4) ∧
    decodeWord 0b1011_10_0110_11_0101#16 = (.jsrReg 5#4) ∧
    decodeWord 0b1110_10_0100_11_1101#16 = (.breakN 13#4) ∧
    decodeWord 0b0000_10_0101_11_0101#16 = (.dip false 5#4) ∧
    decodeWord 0b0110_11_0111_11_1111#16 = (.bcc16 .pl) ∧
    decodeWord 0b1011_10_1000_11_0101#16 = (.moveToSpecialMem .srp false 5#4) ∧
    decodeWord 0b1011_11_1001_11_0010#16 = (.moveFromSpecialMem .srp true 2#4) ∧
    decodeWord 0b0011_10_1100_11_0101#16 = (.rbf false 5#4) ∧
    decodeWord 0b0011_11_1101_11_0010#16 = (.sbfs true 2#4) ∧
    decodeWord 0b0010_10_1110_11_0101#16 = (.movemLoad 2#4 false 5#4) ∧
    decodeWord 0b0101_11_1111_11_0010#16 = (.movemStore 5#4 true 2#4) := by decide

/-- One word of each "(Reserved)" row, and one of each unlisted row (30_encoding.md R153). -/
theorem test_decode_without_meaning :
    decodeWord 0b0110_01_0101_11_1001#16 = .reserved 0x6579#16 ∧
    decodeWord 0b0010_10_0110_00_0001#16 = .reserved 0x2981#16 ∧
    decodeWord 0b0010_11_0110_01_0001#16 = .reserved 0x2D91#16 ∧
    decodeWord 0b0010_10_0110_10_0001#16 = .reserved 0x29A1#16 ∧
    decodeWord 0b0010_10_1010_11_0001#16 = .reserved 0x2AB1#16 ∧
    decodeWord 0b0010_11_1011_11_0001#16 = .reserved 0x2EF1#16 ∧
    decodeWord 0b0010_11_0110_11_0001#16 = .reserved 0x2DB1#16 ∧
    decodeWord 0b0001_10_0100_11_0011#16 = .unlisted 0x1933#16 ∧
    decodeWord 0b1110_11_0100_11_0011#16 = .unlisted 0xED33#16 ∧
    decodeWord 0b1000_10_0110_11_0011#16 = .unlisted 0x89B3#16 ∧
    decodeWord 0b0001_10_0101_11_0011#16 = .unlisted 0x1973#16 ∧
    decodeWord 0b0010_11_0111_11_0011#16 = .unlisted 0x2DF3#16 ∧
    decodeWord 0b0010_10_1100_11_0011#16 = .unlisted 0x2B33#16 ∧
    decodeWord 0b0010_10_1101_11_0011#16 = .unlisted 0x2B73#16 ∧
    decodeWord 0b0010_10_1110_00_0011#16 = .unlisted 0x2B83#16 := by decide

/-- The bytes of a word, low byte first, and what is left of them; fewer than two bytes are no word (20_memory.md R72). -/
theorem test_decode_bytes :
    decodeBytes [0x0F#8, 0x05#8, 0xAA#8] = .ok (.nop, [0xAA#8]) ∧
    (decodeBytes [0x0F#8]).toOption = none ∧ decodeTableWord 16 0x050F = some .nop := by decide

/-! ## Single steps, with the values of 95_test_vectors.md -/

/-- Flags with the bits of CCR (10_state.md R36). -/
def flagsWith (v : Word) : Flags :=
  { c := v.getLsbD 0, v := v.getLsbD 1, z := v.getLsbD 2, n := v.getLsbD 3, x := v.getLsbD 4, i := v.getLsbD 5,
    b := v.getLsbD 6, m := v.getLsbD 7, u := v.getLsbD 8, p := v.getLsbD 9, f := v.getLsbD 10 }

/-- A state with a program at 0x50000, registers, CCR and dwords of memory. -/
def start (program : List Half) (regs : List (RegNo × Word)) (ccr : Word) (mem : List (Word × Word)) : State :=
  let s := regs.foldl (fun t r => writeReg r.1 r.2 t)
    { State.reset with pc := 0x50000#32, ssp := 0x8000#32, usp := 0x9000#32 }
  { s with
    flags := flagsWith ccr
    mem := placeBytes 0x50000#32 0 (program.flatMap fun w => [w.setWidth 8, w.extractLsb' 8 8])
      (mem.foldl (fun m c => storeBytes m c.1 c.2 4) []) }

/-- Does a step lead to a state with this property. -/
def after (s : State) (p : State → Bool) : Bool :=
  match step s with
  | .next t => p t
  | _ => false

/-- N, Z, V, C as four bits. -/
def nzvc (t : State) : Nat := (ccrOfFlags t.flags).toNat % 16

theorem test_moveDMem : after (start [0x2A66#16] [(5#4, 0x1000#32), (6#4, 0x2000#32), (7#4, 0x105#32), (14#4, 0x3000#32)] 0x0#32 [(0x2000#32, 0x4000#32), (0x4000#32, 0xCAFE0001#32)])
    (fun t => readReg 2#4 t == 0x4000#32) = true := by decide

theorem test_moveBMem : after (start [0x2E46#16] [(5#4, 0x1000#32), (6#4, 0x2000#32), (7#4, 0x105#32), (2#4, 0xFFFFFFFF#32), (14#4, 0x3000#32)] 0x0#32 [(0x2000#32, 0x4000#32), (0x4000#32, 0xCAFE0001#32)])
    (fun t => readReg 2#4 t == 0xFFFFFF00#32 && readReg 6#4 t == 0x2001#32 && nzvc t == 4) = true := by decide

theorem test_moveWMem : after (start [0x2E56#16] [(5#4, 0x1000#32), (6#4, 0x2000#32), (7#4, 0x105#32), (14#4, 0x3000#32)] 0x0#32 [(0x2000#32, 0x4000#32), (0x4000#32, 0xCAFE0001#32)])
    (fun t => readReg 6#4 t == 0x2002#32) = true := by decide

theorem test_clearWReg : after (start [0x4673#16] [(3#4, 0x12345678#32)] 0x1F#32 [])
    (fun t => readReg 3#4 t == 0x12340000#32 && ccrOfFlags t.flags == 0xF#16) = true := by decide

theorem test_clearDMem : after (start [0x8E73#16] [(3#4, 0x2000#32)] 0x0#32 [(0x2000#32, 0x12345678#32)])
    (fun t => readReg 3#4 t == 0x2004#32 && loadBytes t.mem 0x2000#32 4 == 0x0#32) = true := by decide

theorem test_testBReg : after (start [0x1642#16] [(1#4, 0xAABBCCDD#32), (2#4, 0x11223380#32)] 0x0#32 [])
    (fun t => readReg 1#4 t == 0xAABBCC80#32 && nzvc t == 8) = true := by decide

theorem test_testDReg : after (start [0x0660#16] [(0#4, 0x0#32)] 0x0#32 [])
    (fun t => nzvc t == 4) = true := by decide

theorem test_moveWStore : after (start [0x0FD5#16] [(0#4, 0x11223344#32), (5#4, 0x4001#32)] 0xF#32 [])
    (fun t => loadBytes t.mem 0x4001#32 1 == 0x44#32 && loadBytes t.mem 0x4002#32 1 == 0x33#32 && readReg 5#4 t == 0x4003#32 && ccrOfFlags t.flags == 0xF#16) = true := by decide

theorem test_moveBStore : after (start [0x1FC2#16] [(1#4, 0x1FF#32), (2#4, 0x100#32)] 0x0#32 [])
    (fun t => loadBytes t.mem 0x100#32 1 == 0xFF#32 && readReg 2#4 t == 0x101#32) = true := by decide

theorem test_moveToSpecial : after (start [0x9632#16] [(2#4, 0x12345678#32)] 0x0#32 [])
    (fun t => t.sregs.ibr == 0x1234#16) = true := by decide

theorem test_moveFromSpecial : after (start [0x5674#16] [(4#4, 0xFFFFFFFF#32)] 0x29#32 [])
    (fun t => readReg 4#4 t == 0xFFFF0029#32) = true := by decide

theorem test_clearBReg : after (start [0x0674#16] [(4#4, 0xFFFFFFFF#32)] 0x0#32 [])
    (fun t => readReg 4#4 t == 0xFFFFFF00#32) = true := by decide

theorem test_moveq : after (start [0x327F#16] [] 0x0#32 [])
    (fun t => readReg 3#4 t == 0xFFFFFFFF#32 && nzvc t == 8) = true := by decide

theorem test_movsBReg : after (start [0x1462#16] [(2#4, 0x80#32)] 0x0#32 [])
    (fun t => readReg 1#4 t == 0xFFFFFF80#32 && nzvc t == 8) = true := by decide

theorem test_movsWReg : after (start [0x1472#16] [(2#4, 0xFFFF7FFF#32)] 0x0#32 [])
    (fun t => readReg 1#4 t == 0x7FFF#32 && nzvc t == 0) = true := by decide

theorem test_movuBReg : after (start [0x1442#16] [(2#4, 0xFFFFFF80#32)] 0x0#32 [])
    (fun t => readReg 1#4 t == 0x80#32 && nzvc t == 0) = true := by decide

theorem test_movuWMem : after (start [0x1853#16] [(3#4, 0x2000#32), (1#4, 0xFFFFFFFF#32)] 0x8#32 [(0x2000#32, 0x8005#32)])
    (fun t => readReg 1#4 t == 0x8005#32 && nzvc t == 0) = true := by decide

theorem test_movemLoad : after (start [0x2FBE#16] [(14#4, 0x1000#32)] 0x0#32 [(0x1000#32, 0xAAAA0002#32), (0x1004#32, 0xBBBB0001#32), (0x1008#32, 0xCCCC0000#32)])
    (fun t => readReg 2#4 t == 0xAAAA0002#32 && readReg 1#4 t == 0xBBBB0001#32 && readReg 0#4 t == 0xCCCC0000#32 && t.ssp == 0x100C#32) = true := by decide

theorem test_movemStore : after (start [0x2BFE#16] [(0#4, 0x1#32), (1#4, 0x2#32), (2#4, 0x3#32), (14#4, 0x2000#32)] 0x0#32 [])
    (fun t => loadBytes t.mem 0x2000#32 4 == 0x3#32 && loadBytes t.mem 0x2004#32 4 == 0x2#32 && loadBytes t.mem 0x2008#32 4 == 0x1#32 && t.ssp == 0x2000#32) = true := by decide

theorem test_popReg : after (start [0x5E6E#16] [(14#4, 0x1FFC#32)] 0x0#32 [(0x1FFC#32, 0x80000000#32)])
    (fun t => readReg 5#4 t == 0x80000000#32 && t.ssp == 0x2000#32 && nzvc t == 8) = true := by decide

theorem test_popSpecial : after (start [0xDE3E#16] [(14#4, 0x1FFC#32)] 0x0#32 [(0x1FFC#32, 0x25#32)])
    (fun t => ccrOfFlags t.flags == 0x25#16 && t.ssp == 0x2000#32) = true := by decide

theorem test_swap : after (start [0x6770#16] [(0#4, 0x12345678#32)] 0x0#32 [])
    (fun t => readReg 0#4 t == 0x78563412#32 && nzvc t == 0) = true := by decide

theorem test_notReg : after (start [0x8770#16] [(0#4, 0x12345678#32)] 0x0#32 [])
    (fun t => readReg 0#4 t == 0xEDCBA987#32 && nzvc t == 8) = true := by decide

theorem test_scc : after (start [0x3533#16] [] 0x4#32 [])
    (fun t => readReg 3#4 t == 0x1#32 && nzvc t == 4) = true := by decide

theorem test_abs : after (start [0x26B1#16] [(1#4, 0xFFFFFFFB#32)] 0x0#32 [])
    (fun t => readReg 2#4 t == 0x5#32 && nzvc t == 0) = true := by decide

theorem test_addDReg : after (start [0x0622#16] [(0#4, 0x7FFFFFFF#32), (2#4, 0x1#32)] 0x0#32 [])
    (fun t => readReg 0#4 t == 0x80000000#32 && nzvc t == 10) = true := by decide

theorem test_addBReg : after (start [0x0602#16] [(0#4, 0x123456FF#32), (2#4, 0x1#32)] 0x0#32 [])
    (fun t => readReg 0#4 t == 0x12345600#32 && nzvc t == 5) = true := by decide

theorem test_addWReg : after (start [0x0612#16] [(0#4, 0x1234FFFF#32), (2#4, 0x1#32)] 0x0#32 [])
    (fun t => readReg 0#4 t == 0x12340000#32 && nzvc t == 5) = true := by decide

theorem test_addiD : after (start [0x3522#16] [(2#4, 0x1000#32), (3#4, 0x5#32)] 0xF#32 [])
    (fun t => readReg 2#4 t == 0x1014#32 && nzvc t == 15) = true := by decide

theorem test_addiW : after (start [0x3512#16] [(2#4, 0x1000#32), (3#4, 0xFFFFFFFF#32)] 0x0#32 [])
    (fun t => readReg 2#4 t == 0xFFE#32 && nzvc t == 0) = true := by decide

theorem test_addq : after (start [0x0201#16] [(0#4, 0xFFFFFFFF#32)] 0x0#32 [])
    (fun t => readReg 0#4 t == 0x0#32 && nzvc t == 5) = true := by decide

theorem test_addsWReg : after (start [0x1433#16] [(1#4, 0xA#32), (3#4, 0xFFFF#32)] 0x0#32 [])
    (fun t => readReg 1#4 t == 0x9#32 && nzvc t == 1) = true := by decide

theorem test_adduWReg : after (start [0x1413#16] [(1#4, 0xA#32), (3#4, 0xFFFF#32)] 0x0#32 [])
    (fun t => readReg 1#4 t == 0x10009#32 && nzvc t == 0) = true := by decide

theorem test_adduBReg : after (start [0x1403#16] [(1#4, 0xFFFFFFFF#32), (3#4, 0x1FF#32)] 0x0#32 [])
    (fun t => readReg 1#4 t == 0xFE#32 && nzvc t == 1) = true := by decide

theorem test_boundDMem : after (start [0x0DEF#16, 0x0005#16, 0x0000#16] [(0#4, 0xA#32)] 0x0#32 [])
    (fun t => readReg 0#4 t == 0x5#32 && nzvc t == 0) = true := by decide

theorem test_boundBReg : after (start [0x05C1#16] [(0#4, 0x300#32), (1#4, 0x1FF#32)] 0x0#32 [])
    (fun t => readReg 0#4 t == 0xFF#32 && nzvc t == 0) = true := by decide

theorem test_cmpDReg : after (start [0x06E1#16] [(0#4, 0x1#32), (1#4, 0x2#32)] 0x0#32 [])
    (fun t => readReg 0#4 t == 0x1#32 && nzvc t == 9) = true := by decide

theorem test_cmpBReg : after (start [0x06C1#16] [(0#4, 0x80#32), (1#4, 0x7F#32)] 0x0#32 [])
    (fun t => nzvc t == 2) = true := by decide

theorem test_cmpq : after (start [0x02C5#16] [(0#4, 0x5#32)] 0x0#32 [])
    (fun t => nzvc t == 4) = true := by decide

theorem test_cmpsBMem : after (start [0x0CEF#16, 0x00FF#16] [(0#4, 0xFFFFFFFF#32)] 0x0#32 [])
    (fun t => nzvc t == 4) = true := by decide

theorem test_cmpuBMem : after (start [0x0CCF#16, 0x00FF#16] [(0#4, 0xFFFFFFFF#32)] 0x0#32 [])
    (fun t => nzvc t == 8) = true := by decide

theorem test_dstep : after (start [0x16F2#16] [(1#4, 0x5#32), (2#4, 0x3#32)] 0x0#32 [])
    (fun t => readReg 1#4 t == 0x7#32 && nzvc t == 0) = true := by decide

theorem test_mstep : after (start [0x17F0#16] [(1#4, 0x1#32), (0#4, 0x5#32)] 0x8#32 [])
    (fun t => readReg 1#4 t == 0x7#32 && nzvc t == 0) = true := by decide

theorem test_negDReg : after (start [0x25A1#16] [(1#4, 0x1#32)] 0x0#32 [])
    (fun t => readReg 2#4 t == 0xFFFFFFFF#32 && nzvc t == 9) = true := by decide

theorem test_negBReg : after (start [0x2581#16] [(1#4, 0x80#32), (2#4, 0x11223344#32)] 0x0#32 [])
    (fun t => readReg 2#4 t == 0x11223380#32 && nzvc t == 11) = true := by decide

theorem test_subDReg : after (start [0x06A1#16] [(0#4, 0x1#32), (1#4, 0x2#32)] 0x0#32 [])
    (fun t => readReg 0#4 t == 0xFFFFFFFF#32 && nzvc t == 9) = true := by decide

theorem test_subBReg : after (start [0x0681#16] [(0#4, 0x0#32), (1#4, 0x1#32)] 0x0#32 [])
    (fun t => readReg 0#4 t == 0xFF#32 && nzvc t == 9) = true := by decide

theorem test_subq : after (start [0x0281#16] [(0#4, 0x1#32)] 0x0#32 [])
    (fun t => readReg 0#4 t == 0x0#32 && nzvc t == 4) = true := by decide

theorem test_subsBReg : after (start [0x14A3#16] [(1#4, 0xA#32), (3#4, 0xFF#32)] 0x0#32 [])
    (fun t => readReg 1#4 t == 0xB#32 && nzvc t == 1) = true := by decide

theorem test_subuBReg : after (start [0x1483#16] [(1#4, 0xA#32), (3#4, 0xFF#32)] 0x0#32 [])
    (fun t => readReg 1#4 t == 0xFFFFFF0B#32 && nzvc t == 9) = true := by decide

theorem test_testWReg : after (start [0x1651#16] [(1#4, 0x80#32)] 0x0#32 [])
    (fun t => nzvc t == 0) = true := by decide

theorem test_testWMem : after (start [0x0B93#16] [(3#4, 0x2000#32)] 0x0#32 [])
    (fun t => nzvc t == 4) = true := by decide

theorem test_mulsB : after (start [0x2901#16] [(1#4, 0xFE#32), (2#4, 0x3#32)] 0x0#32 [])
    (fun t => readReg 2#4 t == 0xFFFFFFFA#32 && t.sregs.mof == 0xFFFFFFFF#32 && nzvc t == 8) = true := by decide

theorem test_mulsD : after (start [0x2921#16] [(1#4, 0x10000#32), (2#4, 0x10000#32)] 0x0#32 [])
    (fun t => readReg 2#4 t == 0x0#32 && t.sregs.mof == 0x1#32 && nzvc t == 2) = true := by decide

theorem test_muluD : after (start [0x2D21#16] [(1#4, 0xFFFFFFFF#32), (2#4, 0xFFFFFFFF#32)] 0x0#32 [])
    (fun t => readReg 2#4 t == 0x1#32 && t.sregs.mof == 0xFFFFFFFE#32 && nzvc t == 10) = true := by decide

theorem test_muluB : after (start [0x2D01#16] [(1#4, 0x12FE#32), (2#4, 0x3#32)] 0x0#32 [])
    (fun t => readReg 2#4 t == 0x2FA#32 && t.sregs.mof == 0x0#32 && nzvc t == 0) = true := by decide

theorem test_andDReg : after (start [0x0721#16] [(0#4, 0x12345678#32), (1#4, 0xFF00#32)] 0x3#32 [])
    (fun t => readReg 0#4 t == 0x5600#32 && nzvc t == 0) = true := by decide

theorem test_andBReg : after (start [0x0701#16] [(0#4, 0x12345678#32), (1#4, 0xFF00#32)] 0x3#32 [])
    (fun t => readReg 0#4 t == 0x12345600#32 && nzvc t == 4) = true := by decide

theorem test_andq : after (start [0x330F#16] [(3#4, 0x12345678#32)] 0x3#32 [])
    (fun t => readReg 3#4 t == 0x8#32 && nzvc t == 0) = true := by decide

theorem test_orBMem : after (start [0x0F4F#16, 0x00F0#16] [(0#4, 0xF#32)] 0x3#32 [])
    (fun t => readReg 0#4 t == 0xFF#32 && nzvc t == 8) = true := by decide

theorem test_orWMem : after (start [0x3F5F#16, 0x0100#16] [(3#4, 0x0#32)] 0x3#32 [])
    (fun t => readReg 3#4 t == 0x100#32 && nzvc t == 0) = true := by decide

theorem test_orq : after (start [0x037F#16] [(0#4, 0x10#32)] 0x3#32 [])
    (fun t => readReg 0#4 t == 0xFFFFFFFF#32 && nzvc t == 8) = true := by decide

theorem test_xor : after (start [0x07B1#16] [(0#4, 0xFF00FF00#32), (1#4, 0xFF00FF0#32)] 0x3#32 [])
    (fun t => readReg 0#4 t == 0xF0F0F0F0#32 && nzvc t == 8) = true := by decide

theorem test_asrDReg : after (start [0x07A1#16] [(0#4, 0x80000000#32), (1#4, 0x4#32)] 0x3#32 [])
    (fun t => readReg 0#4 t == 0xF8000000#32 && nzvc t == 8) = true := by decide

theorem test_asrBReg : after (start [0x0781#16] [(0#4, 0x12345680#32), (1#4, 0x3#32)] 0x3#32 [])
    (fun t => readReg 0#4 t == 0x123456F0#32 && nzvc t == 8) = true := by decide

theorem test_asrq : after (start [0x03A1#16] [(0#4, 0xFFFFFFF0#32)] 0x3#32 [])
    (fun t => readReg 0#4 t == 0xFFFFFFF8#32 && nzvc t == 8) = true := by decide

theorem test_lslDReg : after (start [0x04E1#16] [(0#4, 0xFF#32), (1#4, 0x4#32)] 0x3#32 [])
    (fun t => readReg 0#4 t == 0xFF0#32 && nzvc t == 0) = true := by decide

theorem test_lslBReg : after (start [0x04C1#16] [(0#4, 0xFF#32), (1#4, 0x4#32)] 0x3#32 [])
    (fun t => readReg 0#4 t == 0xF0#32 && nzvc t == 8) = true := by decide

theorem test_lslq : after (start [0x13D0#16] [(1#4, 0x8001#32)] 0x3#32 [])
    (fun t => readReg 1#4 t == 0x80010000#32 && nzvc t == 8) = true := by decide

theorem test_lsrDReg : after (start [0x07E1#16] [(0#4, 0x80000000#32), (1#4, 0x4#32)] 0x3#32 [])
    (fun t => readReg 0#4 t == 0x8000000#32 && nzvc t == 0) = true := by decide

theorem test_lsrBReg : after (start [0x07C1#16] [(0#4, 0x123456F0#32), (1#4, 0x4#32)] 0x3#32 [])
    (fun t => readReg 0#4 t == 0x1234560F#32 && nzvc t == 0) = true := by decide

theorem test_lsrq : after (start [0x03E4#16] [(0#4, 0x12345678#32)] 0x3#32 [])
    (fun t => readReg 0#4 t == 0x1234567#32 && nzvc t == 0) = true := by decide

theorem test_btst : after (start [0x04F1#16] [(0#4, 0x100#32), (1#4, 0x8#32)] 0x3#32 [])
    (fun t => readReg 0#4 t == 0x100#32 && nzvc t == 8) = true := by decide

theorem test_btstq : after (start [0x0387#16] [(0#4, 0xC0#32)] 0x3#32 [])
    (fun t => nzvc t == 8) = true := by decide

theorem test_lz : after (start [0x0731#16] [(1#4, 0x0#32)] 0x3#32 [])
    (fun t => readReg 0#4 t == 0x20#32 && nzvc t == 0) = true := by decide

theorem test_setf : after (start [0x15B3#16] [] 0x4#32 [])
    (fun t => ccrOfFlags t.flags == 0x17#16) = true := by decide

theorem test_clearf : after (start [0x15F3#16] [] 0x63F#32 [])
    (fun t => ccrOfFlags t.flags == 0x2C#16) = true := by decide

theorem test_ax : after (start [0x15B0#16] [] 0x0#32 [])
    (fun t => ccrOfFlags t.flags == 0x10#16) = true := by decide

theorem test_ei : after (start [0x25B0#16] [] 0x0#32 [])
    (fun t => ccrOfFlags t.flags == 0x20#16) = true := by decide

theorem test_di : after (start [0x25F0#16] [] 0x620#32 [])
    (fun t => ccrOfFlags t.flags == 0x0#16) = true := by decide

theorem test_nop : after (start [0x050F#16] [] 0x11#32 [])
    (fun t => ccrOfFlags t.flags == 0x1#16) = true := by decide

theorem test_bcc : after (start [0x3004#16, 0x050F#16] [] 0x0#32 [])
    (fun t => t.pc == 0x50002#32 && t.inhibit) = true := by decide

theorem test_jumpReg : after (start [0x09B3#16] [(3#4, 0x5000#32)] 0x1F#32 [])
    (fun t => t.pc == 0x5000#32 && ccrOfFlags t.flags == 0xF#16) = true := by decide

theorem test_jump : after (start [0x0D3E#16] [(14#4, 0x1FFC#32)] 0x0#32 [(0x1FFC#32, 0x400E#32)])
    (fun t => t.pc == 0x400E#32 && t.ssp == 0x2000#32) = true := by decide

theorem test_jmpu : after (start [0x8D3E#16] [(14#4, 0x1FFC#32)] 0x100#32 [(0x1FFC#32, 0x2002#32)])
    (fun t => t.pc == 0x2002#32 && t.ssp == 0x2000#32 && t.mode == .user && t.usp == 0x9000#32) = true := by decide

theorem test_jsrReg : after (start [0xB9B3#16] [(3#4, 0x5000#32)] 0x0#32 [])
    (fun t => t.pc == 0x5000#32 && t.sregs.srp == 0x50002#32) = true := by decide

theorem test_jsr : after (start [0xBD3F#16, 0x1000#16, 0x0000#16] [] 0x0#32 [])
    (fun t => t.pc == 0x1000#32 && t.sregs.srp == 0x50006#32) = true := by decide

theorem test_jirReg : after (start [0xA9B3#16] [(3#4, 0x5000#32)] 0x0#32 [])
    (fun t => t.pc == 0x5000#32 && t.sregs.irp == 0x50002#32) = true := by decide

theorem test_jsrcReg : after (start [0x39B3#16] [(3#4, 0x5000#32)] 0x0#32 [])
    (fun t => t.pc == 0x5000#32 && t.sregs.srp == 0x50006#32) = true := by decide

theorem test_jsrc : after (start [0x3D3F#16, 0x1000#16, 0x0000#16] [] 0x0#32 [])
    (fun t => t.pc == 0x1000#32 && t.sregs.srp == 0x5000A#32) = true := by decide

theorem test_jircReg : after (start [0x29B3#16] [(3#4, 0x5000#32)] 0x0#32 [])
    (fun t => t.pc == 0x5000#32 && t.sregs.irp == 0x50006#32) = true := by decide

theorem test_jbrcReg : after (start [0x69B3#16] [(3#4, 0x5000#32)] 0x0#32 [])
    (fun t => t.pc == 0x5000#32 && t.sregs.brp == 0x50006#32) = true := by decide

theorem test_bdapByte : after (start [0x611B#16] [(6#4, 0x2000#32)] 0x0#32 [])
    (fun t => t.prefixAddr == some 0x201B#32 && t.inhibit) = true := by decide

theorem test_biapB : after (start [0x7546#16] [(6#4, 0x2000#32), (7#4, 0x105#32)] 0x0#32 [])
    (fun t => t.prefixAddr == some 0x2105#32) = true := by decide

theorem test_biapD : after (start [0x6565#16] [(5#4, 0x1000#32), (6#4, 4#32)] 0x0#32 [])
    (fun t => t.prefixAddr == some 0x1010#32) = true := by decide

theorem test_bdapB : after (start [0x6D47#16] [(6#4, 0x2000#32), (7#4, 0x105#32)] 0x0#32 [(0x104#32, 0x1000#32)])
    (fun t => t.prefixAddr == some 0x2010#32 && readReg 7#4 t == 0x106#32) = true := by decide

theorem test_bdapW : after (start [0x6D5F#16, 0x03E8#16] [(6#4, 0x2000#32)] 0x0#32 [])
    (fun t => t.prefixAddr == some 0x23E8#32 && t.pc == 0x50004#32) = true := by decide

theorem test_dip : after (start [0x0D76#16] [(6#4, 0x2000#32)] 0x0#32 [(0x2000#32, 0x4000#32)])
    (fun t => t.prefixAddr == some 0x4000#32 && readReg 6#4 t == 0x2004#32) = true := by decide

/-- A prefixed load reads at the address handed over, and the address register stays (95 V-A). -/
theorem test_prefixed_load :
    after { start [0x2A62#16] [(2#4, 7#32)] 0x0#32 [(0x2104#32, 0x33221100#32), (0x2108#32, 0x44#32)] with
        prefixAddr := some 0x2105#32, inhibit := true }
      (fun t => readReg 2#4 t == 0x44332211#32 && t.prefixAddr == none) = true := by decide

theorem test_bcc_taken : after (start [0x20FF#16] [] 0x0#32 [])
    (fun t => t.pc == 0x50002#32 && t.delay == some { target := 0x50000#32, ret := false }) = true := by decide

theorem test_bcc16 : after (start [0xEDFF#16, 0x0FFC#16] [] 0x0#32 [])
    (fun t => t.pc == 0x50004#32 && t.delay == some { target := 0x51000#32, ret := false }) = true := by decide

theorem test_breakN :
    after { start [0xE933#16] [] 0x0#32 [] with mode := .user, sregs := { State.reset.sregs with ibr := 0x8001#16 } }
      (fun t => t.pc == 0x80010018#32 && t.sregs.brp == 0x50002#32 && ccrOfFlags t.flags == 0x500#16 &&
        t.mode == .supervisor) = true := by decide

theorem test_ret : after { start [0xB67F#16] [] 0x0#32 [] with sregs := { State.reset.sregs with srp := 0x3000#32 } }
    (fun t => t.pc == 0x50002#32 && t.delay == some { target := 0x3000#32, ret := false }) = true := by decide

theorem test_retb : after { start [0xE67F#16] [] 0x100#32 [] with sregs := { State.reset.sregs with brp := 0x2002#32 } }
    (fun t => t.delay == some { target := 0x2002#32, ret := true } && t.mode == .supervisor) = true := by decide

theorem test_reti : after { start [0xA67F#16] [] 0x100#32 [] with sregs := { State.reset.sregs with irp := 0x2100#32 } }
    (fun t => t.delay == some { target := 0x2100#32, ret := true }) = true := by decide

/-- The mode follows U after the delay slot of RETI (45_jump_branch.md R425). -/
theorem test_slot_of_reti :
    after { start [0x050F#16] [] 0x100#32 [] with delay := some { target := 0x2100#32, ret := true }, inhibit := true }
      (fun t => t.pc == 0x2100#32 && t.mode == .user && t.delay == none) = true := by decide

theorem test_jmpu_stays_in_supervisor_mode : after (start [0x8D3E#16] [(14#4, 0x1FFC#32)] 0x0#32 [(0x1FFC#32, 0x2002#32)])
    (fun t => t.pc == 0x2002#32 && t.mode == .supervisor) = true := by decide

theorem test_pushReg :
    after { start [0x5FEE#16] [(5#4, 0xCAFEBABE#32), (14#4, 0x2000#32)] 0x0#32 [] with prefixAddr := some 0x1FFC#32 }
      (fun t => loadBytes t.mem 0x1FFC#32 4 == 0xCAFEBABE#32 && t.ssp == 0x1FFC#32) = true := by decide

theorem test_pushSpecial :
    after { start [0x5E7E#16] [(14#4, 0x2000#32)] 0x29#32 [] with prefixAddr := some 0x1FFE#32 }
      (fun t => loadBytes t.mem 0x1FFE#32 2 == 0x29#32 && t.ssp == 0x1FFE#32) = true := by decide

/-- SBFS pushes the hidden registers (95 V-J). -/
theorem test_sbfs :
    after { start [0x3F7E#16] [] 0x0#32 [] with
        prefixAddr := some 0x7FF0#32
        hidden := { pc := 0x11112222#32, state := 0x3333#16, instr := 0x4444#16, addr := 0x55556666#32, data := 1#32 } }
      (fun t => t.ssp == 0x7FF0#32 && loadBytes t.mem 0x7FF0#32 4 == 0x11112222#32 &&
        loadBytes t.mem 0x7FF4#32 4 == 0x44443333#32 && loadBytes t.mem 0x7FFC#32 4 == 1#32) = true := by decide

/-- RBF on the record of a load sets up its restart (60_exceptions.md R490). -/
theorem test_rbf :
    after (start [0x3B36#16] [(6#4, 0x2000#32)] 0x100#32
        [(0x2000#32, 0x3002#32), (0x2004#32, 0x2A660110#32), (0x2008#32, 0x4000#32)])
      (fun t => t.pc == 0x3000#32 && t.mode == .user && ccrOfFlags t.flags == 0x0#16 &&
        t.resume == some { next := 0x3002#32, cycle := some { instr := 0x2A66#16, addr := 0x4000#32, data := 0#32, second := false } })
      = true := by decide

/-- With other SR_OFF_* SBFS puts the fields elsewhere (60_exceptions.md R481). -/
theorem test_sbfs_layout :
    after { start [0x3B76#16] [(6#4, 0x2000#32)] 0x0#32 [] with
        layout := { pc := 6, state := 4, instr := 10, addr := 0, data := 12 }
        hidden := { pc := 0x11112222#32, state := 0x3333#16, instr := 0x4444#16, addr := 0x55556666#32, data := 7#32 } }
      (fun t => loadBytes t.mem 0x2000#32 4 == 0x55556666#32 && loadBytes t.mem 0x2004#32 4 == 0x22223333#32 &&
        loadBytes t.mem 0x2008#32 4 == 0x44441111#32 && loadBytes t.mem 0x200C#32 4 == 7#32) = true := by decide

/-- With other SR_OFF_* RBF finds the fields there; it refuses a fetch record with the second-cycle bit (60_exceptions.md
R481, R488). -/
theorem test_rbf_layout :
    (after { start [0x3B36#16] [(6#4, 0x2000#32)] 0x0#32 [(0x2000#32, 0x3000#32), (0x2004#32, 0x30020040#32)] with
        layout := { pc := 6, state := 4, instr := 10, addr := 0, data := 12 } }
      (fun t => t.pc == 0x3000#32 && t.flags.x && t.resume == some { next := 0x3002#32, cycle := none }) = true) ∧
    step (start [0x3B36#16] [(6#4, 0x2000#32)] 0x0#32 [(0x2000#32, 0x3002#32), (0x2004#32, 0x20#32), (0x2008#32, 0x3000#32)])
      = .refused .inconsistentRecord := ⟨by decide, by rfl⟩

/-- A prefixed store with X and F set writes nothing and sets P (95 V-T). -/
theorem test_suppressed_clear : after (start [0x0A73#16] [(3#4, 0x2000#32)] 0x410#32 [(0x2000#32, 0x5A#32)])
    (fun t => loadBytes t.mem 0x2000#32 1 == 0x5A#32 && ccrOfFlags t.flags == 0x600#16) = true := by decide

/-- ADD with X and C set adds the carry and keeps Z only if it was set (95 V-R). -/
theorem test_addDReg_extended : after (start [0x0622#16] [(0#4, 0xFFFFFFFF#32)] 0x15#32 [])
    (fun t => readReg 0#4 t == 0#32 && ccrOfFlags t.flags == 0x5#16) = true := by decide

/-- A TLB miss of a load in user mode takes vector 0x2E (60_exceptions.md R466). -/
theorem test_read_miss :
    after { start [0x2A66#16] [(6#4, 0x2000#32)] 0x0#32 [(0xB8#32, 0x6000#32)] with
        mode := .user
        mmu := { Mmu.reset with
          enable := true, kseg := 1#16
          tlb := Mmu.reset.tlb.set 8 { vpn := 2#15, pageId := 0, pfn := 0x28#19, global := false, valid := true, kernel := false, we := false } } }
      (fun t => t.pc == 0x6000#32 && t.mode == .supervisor && t.hidden.addr == 0x2000#32 && t.hidden.state == 0x10#16 &&
        t.mmu.cause.miss) = true := by decide

/-- Test mode with the MMU off: a load in supervisor mode, its KSEG bit set, reads its own address and records the miss
(20_memory.md R101, row 0, 1). -/
theorem test_test_mode :
    after { start [0x2A66#16] [(6#4, 0x2000#32)] 0x0#32 [(0x2000#32, 0x4000#32)] with
        mmu := { Mmu.reset with kseg := 0xFFFF#16, testMode := true } }
      (fun t => readReg 2#4 t == 0x4000#32 && t.mmu.select == 0 &&
        t.mmu.cause == { MmuCause.zero with vpn := 1#19, miss := true }) = true := by decide

/-- TEST.D PC in a delay slot reads PC and writes flags only (42_arithmetic.md R283, R302). -/
theorem test_testDReg_pc :
    after { start [0xF66F#16] [] 0xF#32 [] with delay := some { target := 0x2100#32, ret := false }, inhibit := true }
      (fun t => t.pc == 0x2100#32 && ccrOfFlags t.flags == 0#16) = true := by decide

/-- Another agent writes between the two cycles of a load at 0x2003: the first byte is the earlier one, the second the
later one (20_memory.md R89). -/
theorem test_outside_writes :
    after { start [0x2A66#16] [(6#4, 0x2003#32)] 0x0#32 [] with
        outside := [[], [(0x2003, 1#8), (0x2004, 2#8)], [(0x2003, 3#8), (0x2004, 4#8)], [(0x2003, 5#8)]] }
      (fun t => readReg 2#4 t == 0x401#32 && memRead t.mem 0x2003 == 3#8 && t.outside == [[(0x2003, 5#8)]]) = true := by decide

/-! ## States that meet the hypotheses of the statements -/

theorem writable_of_map {s : State} (h : s.physMap = State.reset.physMap) (a : Word) (n : Nat) : Writable s a n := by
  intro i _
  have hi : physIndex a i < 2147483648 := Nat.mod_lt _ (by decide)
  simp [regionKind, h, State.reset, State.resetWith, Parameters.defaults, hi]

theorem readable_of_map {s : State} (h : s.physMap = State.reset.physMap) (a : Word) (n : Nat) : Readable s a n := by
  intro i hi
  rw [writable_of_map h a n i hi]
  rfl

theorem fetchable_of {s : State} {a : Word} (hm : s.physMap = State.reset.physMap) (hs : s.stores = State.reset.stores)
    (hf : s.prefetch = none) (he : a.getLsbD 0 = false) : Fetchable s a :=
  ⟨he, readable_of_map hm a 6,
    by intro i _; simp [staleFetch, staleByte, hs, State.reset, State.resetWith], by simp [hf]⟩

/-- The part of `OperandReady` and `StoreReady` that is a check on data. -/
def readyCheck (md : Bool) (r : RegNo) (s : State) : Bool :=
  !s.mmu.enable && !s.mmu.testMode && s.steps.isEmpty && s.mmuMap.isEmpty && s.outside.isEmpty && s.resume == none && s.prefetch == none &&
    s.stores == State.reset.stores && s.physMap == State.reset.physMap && memWf s.mem &&
    (s.delay.isNone || (s.prefixAddr.isNone && !isInline md r s)) &&
    s.delay.all (fun d => !d.target.getLsbD 0) && (!(md && r == 15#4) || s.prefixAddr == none) &&
    (!isInline md r s || !(operandAddress r s).getLsbD 0)

theorem ready_of {md : Bool} {r : RegNo} {s : State} (h : readyCheck md r s = true) (n : Nat) :
    OperandReady md r n s ∧ StoreReady md r n s := by
  simp only [readyCheck, Bool.and_eq_true, Bool.or_eq_true, Bool.not_eq_true', beq_iff_eq, List.isEmpty_iff,
    Option.all_eq_true, Option.isNone_iff_eq_none] at h
  obtain ⟨⟨⟨⟨⟨⟨⟨⟨⟨⟨⟨⟨⟨h1, h2⟩, h3⟩, h4⟩, h0⟩, h5⟩, h6⟩, h7⟩, h8⟩, h9⟩, h10⟩, h11⟩, h12⟩, h13⟩ := h
  have hp : Plain s := ⟨h1, h2, h3, h4, h0⟩
  have hslot : SlotOk s := fun d hd => h11 d hd
  have hform : s.delay.isSome = true → s.prefixAddr = none ∧ isInline md r s = false := by
    intro hd
    rcases h10 with h | h
    · simp [h] at hd
    · exact h
  have hassign : md = true → r = 15#4 → s.prefixAddr = none := by
    intro ha hb
    rcases h12 with h | h
    · simp [ha, hb] at h
    · exact h
  refine ⟨⟨hp, h5, hform, hassign, hslot, ?_⟩, ⟨hp, h5, hform, hassign, hslot, writable_of_map h8 _ _, h9⟩⟩
  by_cases hi : isInline md r s = true
  · rw [if_pos hi]
    exact fetchable_of h8 h7 h6 (by rcases h13 with h | h
                                    · simp [h] at hi
                                    · exact h)
  · rw [if_neg hi]
    exact readable_of_map h8 _ _

/-- After reset, with R1 to R5 at addresses, one of them at the end of memory, one unaligned. -/
def quiet : State :=
  { State.reset with
    regs := ((((State.reset.regs.set 1 0x2000#32).set 2 0x7FFFFFFE#32).set 3 0x1003#32).set 4 0xFFFFFFFF#32).set 5 0x3001#32 }

/-- In the slot of a taken transfer. -/
def slot : State := { quiet with delay := some { target := 0x100#32, ret := true }, inhibit := true }

/-- After a prefix word, in user mode. -/
def prefixedUser : State := { quiet with prefixAddr := some 0x7FFFFFFE#32, inhibit := true, mode := .user }

/-- With a word stored at PC. -/
def running (w : Half) : State := { quiet with mem := storeBytes [] 0x80000002#32 (w.setWidth 32) 2 }

theorem quiet_plain : Plain quiet := ⟨rfl, rfl, rfl, rfl, rfl⟩

theorem quiet_slotOk : SlotOk quiet := by intro d h; cases h

theorem slot_slotOk : SlotOk slot := by intro d h; cases h; rfl

theorem quiet_readable (a : Word) (n : Nat) : Readable quiet a n := readable_of_map rfl a n

theorem running_ok (w : Half) : StateOk (running w) :=
  ⟨storeBytes_keeps_wf _ _ rfl 2, show State.reset.pc.getLsbD 0 = false by decide, fun r h => (Option.some_ne_none r h.symm).elim, fun h => (Bool.false_ne_true h).elim,
    show (0#16).extractLsb' 9 7 = 0#7 by decide, show LayoutOk Config.recordLayout by decide⟩

theorem witness_DecodeOfEncode : ∃ i : Instr, WellFormed i = true := ⟨.movemStore 15#4 true 15#4, by decide⟩

theorem witness_WordsWithoutMeaningStop :
    isReserved 0x0570#16 = true ∧ isReserved 0xFDBF#16 = true ∧ isUnlisted 0x1930#16 = true ∧ isUnlisted 0xFFAF#16 = true ∧
      decodeWord 0x0570#16 = .reserved 0x0570#16 ∧ decodeWord 0x1930#16 = .unlisted 0x1930#16 := by decide

theorem witness_StepRunsDecodedWord : ∃ (s : State) (i : Instr), s.resume = none ∧
    pendingEvent (popIrq s).1 (popIrq s).2 = none ∧ Plain s ∧ Fetchable s s.pc ∧
    decodeBytes [memRead s.mem (physIndex s.pc 0), memRead s.mem (physIndex s.pc 1)] = .ok (i, []) ∧ WellFormed i = true :=
  ⟨running 0x0622#16, .addDReg 0#4 2#4, rfl, rfl, ⟨rfl, rfl, rfl, rfl, rfl⟩, fetchable_of rfl rfl rfl rfl, by decide, by decide⟩

theorem witness_StepRunsDecodedWord_restart : ∃ (s : State) (r : Restart) (c : RestartCycle),
    s.resume = some r ∧ r.cycle = some c :=
  ⟨{ quiet with resume := some { next := 2#32, cycle := some { instr := 0x2A66#16, addr := 0#32, data := 0#32, second := false } } },
    _, _, rfl, rfl⟩

theorem witness_StepKeepsStateOk : ∃ s t : State, StateOk s ∧ step s = .next t := ⟨running 0x0622#16, _, running_ok _, rfl⟩

theorem witness_UserModeProtection : ∃ s t : State, s.mode = .user ∧ step s = .next t :=
  ⟨{ running 0x9632#16 with mode := .user }, _, rfl, rfl⟩

/-- The one case in which M changes: an NMI. -/
theorem witness_UserModeProtection_nmi : ∃ s t : State, s.mode = .user ∧ step s = .next t ∧ t.flags.m = false ∧ s.flags.m = true :=
  ⟨{ running 0x9632#16 with mode := .user, flags := { Flags.zero with m := true }, irqs := [{ irq := none, nmi := true }] },
    _, rfl, rfl, rfl, rfl⟩

theorem witness_ModeChanges_to_supervisor : ∃ s t : State, s.mode = .user ∧ t.mode = .supervisor ∧ step s = .next t :=
  ⟨{ running 0xE93F#16 with mode := .user }, _, rfl, rfl, rfl⟩

theorem witness_ModeChanges_to_user_by_jump : ∃ s t : State, s.mode = .supervisor ∧ t.mode = .user ∧ step s = .next t :=
  ⟨{ running 0x8931#16 with flags := { Flags.zero with u := true } }, _, rfl, rfl, rfl⟩

theorem witness_ModeChanges_to_user_after_slot : ∃ s t : State, s.mode = .supervisor ∧ t.mode = .user ∧ step s = .next t :=
  ⟨{ running 0x050F#16 with
      flags := { Flags.zero with u := true }, delay := some { target := 0x100#32, ret := true }, inhibit := true },
    _, rfl, rfl, rfl⟩

/-- Interrupts enabled, the vector base moved, an answer due. -/
def interrupted (a : IrqAnswer) : State :=
  { quiet with
    irqs := [a], flags := { Flags.zero with i := true, m := true }, sregs := { quiet.sregs with ibr := 0x8001#16 } }

theorem witness_InterruptTaken : ∃ (s : State) (a : IrqAnswer) (rest : List IrqAnswer) (v : Byte),
    s.resume = none ∧ s.inhibit = false ∧ s.hwbreakPending = false ∧ s.irqs = a :: rest ∧ (a.nmi && s.flags.m) = false ∧
    a.irq = some v ∧ s.flags.i = true ∧ Plain s ∧ Readable s (vectorAt s v.toNat) 4 ∧
    (loadBytes s.mem (vectorAt s v.toNat) 4).getLsbD 0 = false :=
  ⟨interrupted { irq := some 0xFF#8, nmi := false }, _, _, 0xFF#8, rfl, rfl, rfl, rfl, rfl, rfl, rfl, ⟨rfl, rfl, rfl, rfl, rfl⟩,
    readable_of_map rfl _ _, rfl⟩

theorem witness_NmiTaken : ∃ (s : State) (a : IrqAnswer) (rest : List IrqAnswer),
    s.resume = none ∧ s.inhibit = false ∧ s.hwbreakPending = false ∧ s.irqs = a :: rest ∧ a.nmi = true ∧ s.flags.m = true ∧
    Plain s ∧ Readable s (vectorAt s 0x21) 4 ∧ (loadBytes s.mem (vectorAt s 0x21) 4).getLsbD 0 = false :=
  ⟨interrupted { irq := some 0#8, nmi := true }, _, _, rfl, rfl, rfl, rfl, rfl, rfl, ⟨rfl, rfl, rfl, rfl, rfl⟩,
    readable_of_map rfl _ _, rfl⟩

theorem witness_BreakpointTaken : ∃ s : State, s.resume = none ∧ s.inhibit = false ∧ s.hwbreakPending = true ∧
    Plain s ∧ Readable s (vectorAt s 0x20) 4 ∧ (loadBytes s.mem (vectorAt s 0x20) 4).getLsbD 0 = false :=
  ⟨{ interrupted { irq := some 0#8, nmi := true } with hwbreakPending := true }, rfl, rfl, rfl, ⟨rfl, rfl, rfl, rfl, rfl⟩,
    readable_of_map rfl _ _, rfl⟩

theorem witness_WindowHoldsEvents : ∃ s : State, s.inhibit = true := ⟨slot, rfl⟩

/-- The MMU on, segment 0 linear-mapped, an empty TLB. -/
def translated : State := { quiet with mmu := { Mmu.reset with enable := true, kseg := 1#16 } }

theorem translated_misses (va : Word) (k : Fin 4) (m : Mode) : ¬ TlbHit { translated with mode := m } va k := by
  simp [TlbHit, entryAt, translated, Mmu.reset, TlbEntry.zero]

theorem witness_ReadMissTakesBusFault : ∃ (s : State) (d r : RegNo) (md : Bool) (pa : Word),
    s.mmu.enable = true ∧ s.mmu.testMode = false ∧ s.steps = [] ∧ s.mmuMap = [] ∧ s.outside = [] ∧ s.resume = none ∧ s.delay = none ∧
    s.mode = .user ∧ s.flags.b = false ∧ d ≠ 15#4 ∧ isInline md r s = false ∧
    (s.prefixAddr.isSome = true → if md then r ≠ 15#4 else r = d) ∧ (∀ k, ¬ TlbHit s (operandAddress r s) k) ∧
    s.mmu.kseg.getLsbD ((vectorAt s 0x2E).toNat / 2 ^ 28) = true ∧ pa = linearPhysical s (vectorAt s 0x2E) ∧
    Readable s pa 4 ∧ (loadBytes s.mem pa 4).getLsbD 0 = false :=
  ⟨{ translated with mode := .user }, 3#4, 2#4, true, 0xB8#32, rfl, rfl, rfl, rfl, rfl, rfl, rfl, rfl, rfl, by decide, rfl,
    by decide, fun k => translated_misses _ k _, by decide, by decide, readable_of_map rfl _ _, rfl⟩

theorem witness_WriteFaultKeepsMemory : ∃ (s : State) (d : RegNo) (md : Bool),
    s.mmu.enable = false ∧ s.mmu.testMode = false ∧ s.steps = [true] ∧ s.mmuMap = [] ∧ s.outside = [] ∧ s.resume = none ∧
    (s.delay.isSome = true → s.prefixAddr = none ∧ isInline md d s = false) ∧
    (md = true → d = 15#4 → s.prefixAddr = none) ∧ s.flags.b = false ∧ storeSuppressed s = false ∧
    Readable s (vectorAt s 0x20) 4 ∧ (loadBytes s.mem (vectorAt s 0x20) 4).getLsbD 0 = false :=
  ⟨{ slot with steps := [true] }, 2#4, true, rfl, rfl, rfl, rfl, rfl, rfl, by decide, by decide, rfl, rfl,
    readable_of_map rfl _ _, rfl⟩

theorem witness_FetchFaultRecord : ∃ s : State, s.resume = none ∧ pendingEvent (popIrq s).1 (popIrq s).2 = none ∧
    s.prefetch = none ∧ s.pc.getLsbD 0 = false ∧ s.mmu.enable = false ∧ s.mmu.testMode = false ∧ s.steps = [true] ∧
    s.mmuMap = [] ∧ s.outside = [] ∧ s.flags.b = false ∧ Readable s (vectorAt s 0x20) 4 ∧
    (loadBytes s.mem (vectorAt s 0x20) 4).getLsbD 0 = false :=
  ⟨{ slot with steps := [true] }, rfl, rfl, rfl, rfl, rfl, rfl, rfl, rfl, rfl, rfl, readable_of_map rfl _ _, rfl⟩

theorem witness_RestartTransparency : ∃ (s : State) (d r : RegNo) (md : Bool),
    OperandReady md r 4 s ∧ s.delay = none ∧ isInline md r s = false ∧ s.flags.b = false ∧ d ≠ 15#4 ∧
    s.pc.getLsbD 0 = false ∧ (s.prefixAddr.isSome = true → md = false → r = d) ∧
    Readable s (vectorAt s 0x20) 4 ∧ (loadBytes s.mem (vectorAt s 0x20) 4).getLsbD 0 = false :=
  ⟨prefixedUser, 3#4, 2#4, true, (ready_of (by decide) 4).1, rfl, rfl, rfl, by decide, rfl, by decide,
    readable_of_map rfl _ _, rfl⟩

theorem witness_LinearMapping : ∃ (s : State) (va : Word), s.mmu.enable = true ∧ Linear s va :=
  ⟨translated, 0x0FFFFFFF#32, rfl, rfl, by decide⟩

/-- The MMU on; two entries hit 0x4000 and one, not writable and for the kernel only, hits 0x8000. -/
def mapped : State :=
  { quiet with
    mode := .user
    mmu := { Mmu.reset with
      enable := true, accExcp := true, weExcp := true
      tlb := ((Mmu.reset.tlb.set 4 { TlbEntry.zero with valid := true, kernel := true, pfn := 0x7FFFF#19 }).set 18
        { TlbEntry.zero with valid := true }).set 50 { TlbEntry.zero with valid := true } } }

theorem mapped_hits : TlbHit mapped 0x8000#32 0 ∧ TlbHit mapped 0x4000#32 1 ∧ TlbHit mapped 0x4000#32 3 ∧
    ∀ j, TlbHit mapped 0x8000#32 j → j = 0 := by
  unfold TlbHit; decide

theorem witness_PageMapping_off : ∃ s : State, s.mmu.enable = false ∧ s.mmu.testMode = false := ⟨quiet, rfl, rfl⟩

theorem witness_PageMapping : ∃ (s : State) (va : Word) (write : Bool) (k : Fin 4), s.mmu.enable = true ∧ ¬ Linear s va ∧
    TlbHit s va k ∧ (∀ j, TlbHit s va j → j = k) ∧ (write = true → (entryAt s va k).we = true ∨ s.mmu.weExcp = false) ∧
    (s.mode = .user → (entryAt s va k).kernel = false ∨ s.mmu.accExcp = false) ∧
    ((entryAt s va k).valid = true ∨ s.mmu.invExcp = false) :=
  ⟨{ mapped with mode := .supervisor }, 0x8000#32, false, 0, rfl, by unfold Linear; decide, mapped_hits.1,
    fun j h => mapped_hits.2.2.2 j h, by decide, by decide, by decide⟩

theorem witness_MmuExceptions_miss : ∃ (s : State) (va : Word), s.mmu.enable = true ∧ s.mmu.testMode = false ∧
    ¬ Linear s va ∧ ∀ k, ¬ TlbHit s va k :=
  ⟨translated, 0xFFFFFFFF#32, rfl, rfl, by unfold Linear; decide, fun k => translated_misses _ k _⟩

theorem witness_MmuExceptions_single : ∃ (s : State) (va : Word) (write : Bool) (k : Fin 4) (inv acc we : Bool),
    s.mmu.enable = true ∧ s.mmu.testMode = false ∧ ¬ Linear s va ∧ TlbHit s va k ∧ (∀ j, TlbHit s va j → j = k) ∧
    we = (write && !(entryAt s va k).we && s.mmu.weExcp) ∧
    acc = (decide (s.mode = .user) && (entryAt s va k).kernel && s.mmu.accExcp) ∧
    inv = (!(entryAt s va k).valid && s.mmu.invExcp) ∧ (we || acc || inv) = true :=
  ⟨mapped, 0x8000#32, true, 0, false, true, true, rfl, rfl, by unfold Linear; decide, mapped_hits.1,
    fun j h => mapped_hits.2.2.2 j h, by decide, by decide, by decide, rfl⟩

theorem witness_MmuExceptions_multiple : ∃ (s : State) (va : Word) (j k : Fin 4), s.mmu.enable = true ∧
    s.mmu.testMode = false ∧ ¬ Linear s va ∧ TlbHit s va j ∧ TlbHit s va k ∧ j ≠ k :=
  ⟨mapped, 0x4000#32, 1, 3, rfl, rfl, by unfold Linear; decide, mapped_hits.2.1, mapped_hits.2.2.1, by decide⟩

/-- In test mode with the MMU off, in a segment whose KSEG bit is set: no hit, one hit with a condition true and one without,
two hits. -/
def tested : State := { mapped with mode := .supervisor, mmu := { mapped.mmu with enable := false, testMode := true, kseg := 1#16 } }

theorem witness_MmuExceptions_test : tested.mmu.enable = false ∧ tested.mmu.testMode = true ∧ Linear tested 0xC000#32 ∧
    (∀ k, ¬ TlbHit tested 0xC000#32 k) ∧
    (TlbHit tested 0x8000#32 0 ∧ (∀ j, TlbHit tested 0x8000#32 j → j = 0) ∧
      (!(entryAt tested 0x8000#32 0).we && tested.mmu.weExcp) = true ∧
      ((entryAt tested 0x8000#32 0).valid || !tested.mmu.invExcp) = true) ∧
    TlbHit tested 0x4000#32 1 ∧ TlbHit tested 0x4000#32 3 := by
  unfold TlbHit Linear; decide

theorem witness_TlbWriteProtocol : ∃ (m : Mmu) (i : Nat), i < 64 ∧ i ≠ m.select.toNat := ⟨Mmu.reset, 63, by decide, by decide⟩

theorem witness_AccessesWithoutMeaningStop_nothing : ∃ (s : State) (d r : RegNo), Plain s ∧ s.resume = none ∧
    s.delay = none ∧ s.prefixAddr = none ∧ d ≠ 15#4 ∧ regionKind s (physIndex (readReg r s) 0) = none :=
  ⟨{ quiet with physMap := [{ base := 0, size := 0x1003, kind := .ram }] }, 1#4, 3#4, ⟨rfl, rfl, rfl, rfl, rfl⟩, rfl, rfl, rfl,
    by decide, by decide⟩

theorem witness_AccessesWithoutMeaningStop_rom : ∃ (s : State) (d : RegNo), Plain s ∧ s.resume = none ∧ s.delay = none ∧
    s.prefixAddr = none ∧ storeSuppressed s = false ∧ regionKind s (physIndex (readReg d s) 0) = some .rom :=
  ⟨{ quiet with physMap := [{ base := 0x1000, size := 4, kind := .rom }] }, 3#4, ⟨rfl, rfl, rfl, rfl, rfl⟩, rfl, rfl, rfl, rfl,
    by decide⟩

theorem witness_AccessesWithoutMeaningStop_stale : ∃ s : State, Plain s ∧ s.resume = none ∧
    pendingEvent (popIrq s).1 (popIrq s).2 = none ∧ s.prefetch = none ∧ s.pc.getLsbD 0 = false ∧ Readable s s.pc 4 ∧
    (staleByte s.stores s.pc 0 || staleByte s.stores s.pc 1) = true :=
  ⟨{ quiet with stores := { fresh := [2], cached := [], uncached := [] } }, ⟨rfl, rfl, rfl, rfl, rfl⟩, rfl, rfl, rfl, rfl,
    readable_of_map rfl _ _, by decide⟩

/-- The second byte alone, stored once with bit 31 clear. -/
theorem witness_AccessesWithoutMeaningStop_stale_second : ∃ s : State, Plain s ∧ s.resume = none ∧
    pendingEvent (popIrq s).1 (popIrq s).2 = none ∧ s.prefetch = none ∧ s.pc.getLsbD 0 = false ∧ Readable s s.pc 4 ∧
    staleByte s.stores s.pc 0 = false ∧ staleByte s.stores s.pc 1 = true :=
  ⟨{ quiet with stores := { fresh := [], cached := [3], uncached := [] } }, ⟨rfl, rfl, rfl, rfl, rfl⟩, rfl, rfl, rfl, rfl,
    readable_of_map rfl _ _, by decide, by decide⟩

theorem witness_AccessesWithoutMeaningStop_loop : ∃ (s : State) (b : BusFault), b.single = false ∧ s.mmu.enable = true ∧
    s.mmu.testMode = false ∧ s.steps = [] ∧ s.mmu.kseg.getLsbD ((vectorAt s 0x2E).toNat / 2 ^ 28) = false ∧
    ∀ k, ¬ TlbHit s (vectorAt s 0x2E) k :=
  ⟨{ translated with sregs := { quiet.sregs with ibr := 0x1000#16 } }, vectorFault 0#32 false, rfl, rfl, rfl, rfl, by decide,
    fun k => translated_misses _ k .supervisor⟩

theorem witness_OddTargetsStop : ∃ (s : State) (r : RegNo), s.prefixAddr = none ∧ s.delay = none ∧
    (readReg r s).getLsbD 0 = true := ⟨quiet, 4#4, rfl, rfl, by decide⟩

/-- A state with a record of the given dwords at 0x2000. -/
def withRecord (pc state addr : Word) : State :=
  { quiet with mem := storeBytes (storeBytes (storeBytes [] 0x2000#32 pc 4) 0x2004#32 state 4) 0x2008#32 addr 4 }

theorem witness_OddTargetsStop_memory : ∃ (s : State) (r : RegNo) (md : Bool), OperandReady md r 4 s ∧ s.delay = none ∧
    (memoryValue r 4 s).getLsbD 0 = true :=
  ⟨withRecord 0xFFFFFFFF#32 0#32 0#32, 1#4, true, (ready_of (by decide) 4).1, rfl, by decide⟩

theorem witness_OddTargetsStop_movem : ∃ (s : State) (r : RegNo), Plain s ∧ s.resume = none ∧ s.delay = none ∧
    Readable s (operandAddress r s) 64 ∧ (loadBytes s.mem (operandAddress r s) 4).getLsbD 0 = true :=
  ⟨withRecord 1#32 0#32 0#32, 1#4, ⟨rfl, rfl, rfl, rfl, rfl⟩, rfl, rfl, readable_of_map rfl _ _, by decide⟩

theorem witness_OddTargetsStop_vector : ∃ s : State, s.resume = none ∧ s.inhibit = false ∧ s.hwbreakPending = true ∧
    Plain s ∧ Readable s (vectorAt s 0x20) 4 ∧ (loadBytes s.mem (vectorAt s 0x20) 4).getLsbD 0 = true :=
  ⟨{ quiet with mem := storeBytes [] 0x80#32 1#32 4, hwbreakPending := true }, rfl, rfl, rfl, ⟨rfl, rfl, rfl, rfl, rfl⟩,
    readable_of_map rfl _ _, by decide⟩

theorem witness_OddTargetsStop_slot : ∃ (s : State) (t : Delay), s.prefixAddr = none ∧ s.delay = some t ∧
    t.target.getLsbD 0 = true := ⟨{ slot with delay := some { target := 1#32, ret := false } }, _, rfl, rfl, rfl⟩

theorem witness_UnsupportedPcUsesStop : ∃ s : State, s.prefixAddr = none := ⟨slot, rfl⟩

theorem witness_UnsupportedPcUsesStop_assign : ∃ s : State, s.prefixAddr.isSome = true ∧ s.delay = none :=
  ⟨prefixedUser, rfl, rfl⟩

/-- For the clauses of BOUND, the moves of special registers and MOVEM. -/
theorem witness_UnsupportedPcUsesStop_assign_forms : ∃ (s : State) (d : RegNo) (p : SReg), s.prefixAddr.isSome = true ∧
    s.delay = none ∧ d ≠ 15#4 ∧ sregSize p ≠ none ∧ restartCycle s = none :=
  ⟨prefixedUser, 14#4, .usp, rfl, rfl, by decide, by decide, rfl⟩

theorem witness_UnusablePrefixStops : ∃ s : State, s.prefixAddr.isSome = true ∧ s.delay = none := ⟨prefixedUser, rfl, rfl⟩

theorem witness_ForbiddenSlotWordsStop : ∃ (s : State) (p : SReg), s.delay.isSome = true ∧ s.prefixAddr = none ∧
    sregSize p ≠ none ∧ p ≠ .irp ∧ p ≠ .brp := ⟨slot, .srp, rfl, rfl, by decide, by decide, by decide⟩

theorem witness_ForbiddenSlotWordsStop_memory : ∃ (s : State) (r : RegNo) (md : Bool), s.delay.isSome = true ∧
    s.prefixAddr = none ∧ isInline md r s = false := ⟨slot, 15#4, false, rfl, rfl, rfl⟩

theorem witness_ForbiddenSlotWordsStop_inline : ∃ (s : State) (r : RegNo) (md : Bool), s.delay.isSome = true ∧
    (s.prefixAddr.isSome = true ∨ isInline md r s = true) := ⟨slot, 15#4, true, rfl, .inr rfl⟩

theorem witness_ForbiddenSlotWordsStop_prefixed : ∃ (s : State) (r : RegNo) (md : Bool), s.delay.isSome = true ∧
    (s.prefixAddr.isSome = true ∨ isInline md r s = true) := ⟨{ slot with prefixAddr := some 0#32 }, 0#4, false, rfl, .inl rfl⟩

/-- For the clauses that name the refusal: an in-line operand, and a prefixed one. -/
theorem witness_ForbiddenSlotWordsStop_named : ∃ (s : State) (d r : RegNo) (md : Bool) (p : SReg), s.delay.isSome = true ∧
    isInline md r s = true ∧ d ≠ 15#4 ∧ threeOperandDest d md r s ≠ 15#4 ∧ sregSize p ≠ none ∧ d.toNat < r.toNat ∧
    restartCycle s = none := ⟨slot, 14#4, 15#4, true, .usp, rfl, rfl, by decide, by decide, by decide, by decide, rfl⟩

theorem witness_ForbiddenSlotWordsStop_named_prefixed : ∃ (s : State) (d r : RegNo) (md : Bool) (p : SReg),
    s.delay.isSome = true ∧ s.prefixAddr.isSome = true ∧ (md = false → r = d) ∧ threeOperandDest d md r s ≠ 15#4 ∧
    d ≠ 15#4 ∧ sregSize p ≠ none ∧ restartCycle s = none :=
  ⟨{ slot with prefixAddr := some 0#32 }, 14#4, 14#4, false, .p0, rfl, rfl, by decide, by decide, by decide, by decide, rfl⟩

theorem witness_UndefinedOperandsStop : ∃ (s : State) (p : SReg), (p = .p2 ∨ p = .p3 ∨ p = .p6) ∧ s.prefixAddr = none :=
  ⟨slot, .p6, .inr (.inr rfl), rfl⟩

theorem witness_UndefinedOperandsStop_operand1 : ∃ (s : State) (d r : RegNo), s.prefixAddr.isSome = true ∧ r ≠ d :=
  ⟨prefixedUser, 0#4, 15#4, rfl, by decide⟩

theorem witness_UndefinedOperandsStop_movem : ∃ d r : RegNo, r.toNat ≤ d.toNat := ⟨15#4, 15#4, by decide⟩

theorem witness_UndefinedOperandsStop_restart : ∃ (s : State) (d r : RegNo), s.prefixAddr.isSome = true ∧
    (restartCycle s).isSome = true ∧ d.toNat < r.toNat :=
  ⟨{ prefixedUser with
      resume := some { next := 2#32, cycle := some { instr := 0x2FE1#16, addr := 0#32, data := 0#32, second := true } } },
    0#4, 1#4, rfl, rfl, by decide⟩

theorem witness_PartialWrites : ∃ d : RegNo, d ≠ 15#4 := ⟨14#4, by decide⟩

/-- For AddSubtractRegisters, BoundAbsAddiSteps, LogicRegisters, ShiftRegisters, MoveRegisters, SwapAndScc, Multiply,
MovesFromSpecial; CompareAndBitTestRegisters and TEST of MoveRegisters ask for less. -/
theorem witness_register_statements : ∃ (s : State) (d : RegNo), s.prefixAddr = none ∧ SlotOk s ∧ d ≠ 15#4 :=
  ⟨quiet, 14#4, rfl, quiet_slotOk, by decide⟩

/-- The same, in the slot of a taken transfer. -/
theorem witness_register_statements_in_slot : ∃ (s : State) (d : RegNo), s.prefixAddr = none ∧ SlotOk s ∧ d ≠ 15#4 ∧
    s.delay.isSome = true := ⟨slot, 0#4, rfl, slot_slotOk, by decide, rfl⟩

theorem witness_PcDestinationRegisters : ∃ s : State, s.prefixAddr = none ∧ s.delay = none := ⟨quiet, rfl, rfl⟩

theorem witness_OperandForms : ∃ (s t : State) (r : RegNo), s.resume = none ∧ s.prefixAddr = none ∧ t.prefixAddr = none ∧
    r ≠ 15#4 := ⟨quiet, slot, 14#4, rfl, rfl, rfl, by decide⟩

theorem witness_OperandForms_prefixed : ∃ (s t : State) (p : Word), s.resume = none ∧ s.prefixAddr = some p ∧
    t.prefixAddr = some p := ⟨prefixedUser, prefixedUser, _, rfl, rfl, rfl⟩

/-- For AddSubtractMemory, LogicAndBoundMemory and CompareAndTestMemory: autoincrement at the end of memory, in the slot
of a taken transfer. -/
theorem witness_memory_statements : ∃ (s : State) (d r : RegNo) (md : Bool), threeOperandDest d md r s ≠ 15#4 ∧ d ≠ 15#4 ∧
    (d = 15#4 → isInline md r s = false) ∧ ∀ n, OperandReady md r n s :=
  ⟨slot, 14#4, 2#4, true, by decide, by decide, by decide, fun n => (ready_of (by decide) n).1⟩

/-- The same for the 3-operand form with PC as the source register. -/
theorem witness_memory_statements_three_operands : ∃ (s : State) (d r : RegNo) (md : Bool),
    threeOperandDest d md r s ≠ 15#4 ∧ (d = 15#4 → isInline md r s = false) ∧ ∀ n, OperandReady md r n s :=
  ⟨prefixedUser, 15#4, 3#4, false, by decide, by decide, fun n => (ready_of (by decide) n).1⟩

/-- The same for an in-line operand. -/
theorem witness_memory_statements_inline : ∃ (s : State) (d r : RegNo) (md : Bool), threeOperandDest d md r s ≠ 15#4 ∧
    d ≠ 15#4 ∧ isInline md r s = true ∧ ∀ n, OperandReady md r n s :=
  ⟨quiet, 0#4, 15#4, true, by decide, by decide, by decide, fun n => (ready_of (by decide) n).1⟩

theorem witness_MoveMemory : ∃ (s : State) (d r : RegNo) (md : Bool), d ≠ 15#4 ∧
    (s.prefixAddr.isSome = true → md = false → r = d) ∧ ∀ n, OperandReady md r n s :=
  ⟨prefixedUser, 4#4, 4#4, false, by decide, by decide, fun n => (ready_of (by decide) n).1⟩

theorem witness_MoveMemory_pop : ∃ (s : State) (d : RegNo), d ≠ 15#4 ∧ OperandReady true 14#4 4 s :=
  ⟨slot, 14#4, by decide, (ready_of (by decide) 4).1⟩

theorem witness_PcDestinationMemory : ∃ (s : State) (d r : RegNo) (md : Bool), s.delay = none ∧
    threeOperandDest d md r s = 15#4 ∧ (d = 15#4 → isInline md r s = false) ∧ ∀ n, OperandReady md r n s :=
  ⟨prefixedUser, 3#4, 15#4, false, rfl, by decide, by decide, fun n => (ready_of (by decide) n).1⟩

theorem witness_PcDestinationMemory_move : ∃ (s : State) (r : RegNo) (md : Bool), s.delay = none ∧
    (s.prefixAddr.isSome = true → md = false → r = 15#4) ∧ ∀ n, OperandReady md r n s :=
  ⟨quiet, 15#4, true, rfl, by decide, fun n => (ready_of (by decide) n).1⟩

theorem witness_PcDestinationMemory_pop : ∃ s : State, s.delay = none ∧ OperandReady true 14#4 4 s :=
  ⟨quiet, rfl, (ready_of (by decide) 4).1⟩

theorem witness_Stores : ∃ (s : State) (d : RegNo) (md : Bool) (p : SReg) (z : Size), storeSuppressed s = false ∧
    sregSize p = some z ∧ (∀ n, StoreReady md d n s) ∧ ∀ n, StoreReady true 14#4 n s :=
  ⟨slot, 2#4, true, .bar, .dword, rfl, rfl, fun n => (ready_of (by decide) n).2, fun n => (ready_of (by decide) n).2⟩

theorem witness_SuppressedStores : ∃ (s : State) (d : RegNo) (md : Bool), s.flags.f = true ∧ s.flags.x = true ∧
    s.resume = none ∧ SlotOk s ∧ (s.delay.isSome = true → s.prefixAddr = none ∧ isInline md d s = false) ∧
    (md = true → d = 15#4 → s.prefixAddr = none) ∧ md = true ∧ d = 14#4 :=
  ⟨{ slot with flags := { Flags.zero with f := true, x := true } }, 14#4, true, rfl, rfl, rfl, slot_slotOk, by decide,
    by decide, rfl, rfl⟩

theorem witness_SpecialRegisterFile : quiet.mode = .supervisor ∧ prefixedUser.mode = .user := ⟨rfl, rfl⟩

theorem witness_MovesToSpecial : ∃ (s : State) (p : SReg) (z : Size) (r : RegNo) (md : Bool), sregSize p = some z ∧
    s.prefixAddr = none ∧ SlotOk s ∧ OperandReady md r (sizeBytes z) s ∧ OperandReady true 14#4 (sizeBytes z) s :=
  ⟨slot, .ccr, .word, 2#4, true, rfl, rfl, slot_slotOk, (ready_of (by decide) _).1, (ready_of (by decide) _).1⟩

theorem witness_MovesToSpecial_inline : ∃ (s : State) (p : SReg) (z : Size), sregSize p = some z ∧
    OperandReady true 15#4 (sizeBytes z) s := ⟨quiet, .vr, .byte, rfl, (ready_of (by decide) _).1⟩

theorem witness_MovesFromSpecial : ∃ (s : State) (d : RegNo) (p : SReg) (z : Size), s.prefixAddr = none ∧ SlotOk s ∧
    d ≠ 15#4 ∧ sregSize p = some z := ⟨slot, 14#4, .usp, .dword, rfl, slot_slotOk, by decide, rfl⟩

theorem witness_Returns : ∃ (s : State) (p : SReg) (z : Size), s.prefixAddr = none ∧ s.delay = none ∧ sregSize p = some z ∧
    s.sregs.irp.getLsbD 0 = false ∧ s.sregs.brp.getLsbD 0 = false ∧ s.sregs.srp.getLsbD 0 = false :=
  ⟨quiet, .ccr, .word, rfl, rfl, rfl, rfl, rfl, rfl⟩

theorem witness_Returns_in_slot : ∃ s : State, s.prefixAddr = none ∧ s.delay.isSome = true ∧ SlotOk s :=
  ⟨slot, rfl, rfl, slot_slotOk⟩

theorem witness_MultipleMoves_load : ∃ (s : State) (d r : RegNo) (md : Bool), Plain s ∧ s.resume = none ∧ SlotOk s ∧
    (s.delay.isSome = true → s.prefixAddr = none ∧ isInline md r s = false) ∧
    (md = true → r = 15#4 → s.prefixAddr = none) ∧ (md = true → d.toNat < r.toNat) ∧ d ≠ 15#4 ∧
    isInline md r s = false ∧ Readable s (operandAddress r s) (4 * (d.toNat + 1)) :=
  ⟨slot, 1#4, 2#4, true, ⟨rfl, rfl, rfl, rfl, rfl⟩, rfl, slot_slotOk, by decide, by decide, by decide, by decide, rfl,
    readable_of_map rfl _ _⟩

theorem witness_MultipleMoves_inline : ∃ (s : State) (d r : RegNo) (md : Bool), Plain s ∧ s.resume = none ∧ SlotOk s ∧
    (md = true → d.toNat < r.toNat) ∧ d ≠ 15#4 ∧ isInline md r s = true ∧
    ∀ k, k ≤ d.toNat → Fetchable s (operandAddress r s + BitVec.ofNat 32 (4 * k)) := by
  refine ⟨quiet, 14#4, 15#4, true, quiet_plain, rfl, quiet_slotOk, by decide, by decide, rfl, ?_⟩
  intro k hk
  refine fetchable_of rfl rfl rfl ?_
  have h : ∀ n, n < 15 → (operandAddress 15#4 quiet + BitVec.ofNat 32 (4 * n)).getLsbD 0 = false := by decide
  exact h k (Nat.lt_succ_of_le hk)

theorem witness_MultipleMoves_load_to_pc : ∃ (s : State) (r : RegNo), Plain s ∧ s.resume = none ∧ s.delay = none ∧
    Readable s (operandAddress r s) 64 ∧ (loadBytes s.mem (operandAddress r s) 4).getLsbD 0 = false :=
  ⟨quiet, 2#4, quiet_plain, rfl, rfl, readable_of_map rfl _ _, rfl⟩

theorem witness_MultipleMoves_store : ∃ (s : State) (d r : RegNo) (md : Bool), StoreReady md d (4 * (r.toNat + 1)) s ∧
    storeSuppressed s = false := ⟨slot, 2#4, 15#4, true, (ready_of (by decide) _).2, rfl⟩

theorem witness_Branches : ∃ (s : State) (c e : Cond), s.prefixAddr = none ∧ s.delay = none ∧ s.resume = none ∧ Plain s ∧
    Fetchable s (s.pc + 2#32) ∧ condHolds c s.flags = true ∧ condHolds e s.flags = false :=
  ⟨quiet, .a, .wf, rfl, rfl, rfl, quiet_plain, fetchable_of rfl rfl rfl (by decide), rfl, rfl⟩

theorem witness_Jumps : ∃ (s : State) (r : RegNo), s.prefixAddr = none ∧ s.delay = none ∧ (readReg r s).getLsbD 0 = false :=
  ⟨quiet, 2#4, rfl, rfl, by decide⟩

theorem witness_Jumps_memory : ∃ (s : State) (r : RegNo) (md : Bool), OperandReady md r 4 s ∧ s.delay = none ∧
    (memoryValue r 4 s).getLsbD 0 = false := ⟨prefixedUser, 2#4, true, (ready_of (by decide) 4).1, rfl, by decide⟩

theorem witness_Jumps_inline : ∃ (s : State), OperandReady true 15#4 4 s ∧ s.delay = none ∧
    (memoryValue 15#4 4 s).getLsbD 0 = false := ⟨quiet, (ready_of (by decide) 4).1, rfl, by decide⟩

theorem witness_BreakInstruction : ∃ s : State, s.prefixAddr = none ∧ s.delay = none := ⟨quiet, rfl, rfl⟩

theorem witness_FlagInstructions : ∃ (s : State) (g : Bool), s.prefixAddr = none ∧ SlotOk s ∧
    g = decide (s.mode = .supervisor) := ⟨slot, true, rfl, slot_slotOk, rfl⟩

theorem witness_FlagInstructions_user : ∃ (s : State) (g : Bool), s.prefixAddr = none ∧ SlotOk s ∧
    g = decide (s.mode = .supervisor) := ⟨{ quiet with mode := .user }, false, rfl, quiet_slotOk, rfl⟩

theorem witness_PrefixWords : ∃ (s : State) (r : RegNo) (md : Bool), s.prefixAddr = none ∧ s.delay = none ∧
    s.resume = none ∧ Plain s ∧ isInline md r s = false ∧ Readable s (readReg r s) 4 :=
  ⟨quiet, 2#4, true, rfl, rfl, rfl, quiet_plain, rfl, readable_of_map rfl _ _⟩

theorem witness_PrefixWords_inline : ∃ (s : State) (r : RegNo) (md : Bool), s.prefixAddr = none ∧ s.delay = none ∧
    s.resume = none ∧ Plain s ∧ isInline md r s = true ∧ Fetchable s (readReg r s) :=
  ⟨quiet, 15#4, true, rfl, rfl, rfl, quiet_plain, rfl, fetchable_of rfl rfl rfl (by decide)⟩

theorem witness_PrefixWords_consecutive : ∃ (s : State) (a : Word), s.prefixAddr = some a ∧ s.delay = none ∧
    s.resume = none ∧ Plain s ∧ Readable s a 4 :=
  ⟨prefixedUser, _, rfl, rfl, rfl, ⟨rfl, rfl, rfl, rfl, rfl⟩, readable_of_map rfl _ _⟩

/-- A layout that is not the default: the address first, PC across two dwords. -/
def otherLayout : Config.RecordLayout := { pc := 6, state := 4, instr := 10, addr := 0, data := 12 }

theorem witness_SaveStatus : ∃ (s : State) (d : RegNo) (md : Bool), LayoutOk s.layout ∧ s.layout ≠ Config.recordLayout ∧
    StoreReady md d 16 s :=
  ⟨{ slot with layout := otherLayout }, 2#4, true, by decide, by decide, (ready_of (by decide) 16).2⟩

theorem witness_ResetStateOk : ∃ p : Parameters, memWf p.mem = true ∧ LayoutOk p.layout ∧ p.bootMethod = .serial :=
  ⟨{ Parameters.defaults with bootMethod := .serial, mem := [(0x380000F4, 1#8)], layout := otherLayout }, by decide, by decide, rfl⟩

theorem witness_ReturnFromBusFault_fetch : ∃ (s : State) (r : RegNo) (md : Bool) (rec : StatusRecord),
    LayoutOk s.layout ∧ Plain s ∧ s.resume = none ∧ s.delay = none ∧ (md = true → r = 15#4 → s.prefixAddr = none) ∧ isInline md r s = false ∧
    Readable s (operandAddress r s) 16 ∧ rec = recordAt s.layout s.mem (operandAddress r s) ∧
    (rec.state.getLsbD 3 = true → rec.state.getLsbD 2 = true) ∧ rec.pc.getLsbD 0 = false ∧
    rec.state.getLsbD 4 = false ∧ rec.state.getLsbD 5 = false ∧ rec.addr.getLsbD 0 = false ∧ (rec.state.getLsbD 2 = false → rec.pc = rec.addr + 2#32) :=
  ⟨withRecord 0x3002#32 0xC2#32 0x3000#32, 1#4, true, _, by decide, ⟨rfl, rfl, rfl, rfl, rfl⟩, rfl, rfl, by decide, rfl,
    readable_of_map rfl _ _, rfl, by decide, by decide, by decide, by decide, by decide, by decide⟩

/-- The second cycle of a load that crosses a dword, in the slot of a RETI. -/
theorem witness_ReturnFromBusFault_data : ∃ (s : State) (r : RegNo) (md : Bool) (rec : StatusRecord) (m : MemoryForm) (next : Word),
    LayoutOk s.layout ∧ Plain s ∧ s.resume = none ∧ s.delay = none ∧ (md = true → r = 15#4 → s.prefixAddr = none) ∧ isInline md r s = false ∧
    Readable s (operandAddress r s) 16 ∧ rec = recordAt s.layout s.mem (operandAddress r s) ∧
    (rec.state.getLsbD 3 = true → rec.state.getLsbD 2 = true) ∧ rec.pc.getLsbD 0 = false ∧
    rec.state.getLsbD 4 = true ∧ memoryForm (decodeWord rec.instr) = some m ∧
    (rec.state.getLsbD 5 = true → 4 < rec.addr.toNat % 4 + m.unit) ∧
    next = rec.pc - BitVec.ofNat 32 (if m.md && m.reg == 15#4 && !rec.state.getLsbD 1 && !rec.state.getLsbD 2 then
      (if m.bytes = 1 then 2 else m.bytes) else 0) :=
  ⟨withRecord 0x3002#32 0x2A66003C#32 0x4003#32, 1#4, false, _, { md := false, reg := 6#4, unit := 4, bytes := 4 }, _,
    by decide, ⟨rfl, rfl, rfl, rfl, rfl⟩, rfl, rfl, by decide, rfl, readable_of_map rfl _ _, rfl, by decide, by decide, by decide,
    by decide, by decide, rfl⟩

/-- A record whose bits 3 and 2 contradict each other, one whose instruction has no memory operand, one whose datum does
not cross a dword, a fetch record with bit 5, one whose PC field is not the next address. -/
theorem witness_ReturnFromBusFault_contradictory :
    ((recordAt Config.recordLayout (withRecord 0#32 0x08#32 0#32).mem 0x2000#32).state.getLsbD 3 = true ∧
      (recordAt Config.recordLayout (withRecord 0#32 0x08#32 0#32).mem 0x2000#32).state.getLsbD 2 = false) ∧
    memoryForm (decodeWord (recordAt Config.recordLayout (withRecord 0#32 0x050F0010#32 0#32).mem 0x2000#32).instr) = none ∧
    memoryForm (decodeWord (recordAt Config.recordLayout (withRecord 0#32 0x2A660030#32 0x4000#32).mem 0x2000#32).instr) =
      some { md := false, reg := 6#4, unit := 4, bytes := 4 } ∧
    ((recordAt Config.recordLayout (withRecord 0x3002#32 0x20#32 0x3000#32).mem 0x2000#32).state.getLsbD 4 = false ∧
      (recordAt Config.recordLayout (withRecord 0x3002#32 0x20#32 0x3000#32).mem 0x2000#32).state.getLsbD 5 = true) ∧
    (recordAt Config.recordLayout (withRecord 0x3004#32 0#32 0x3000#32).mem 0x2000#32).pc ≠
      (recordAt Config.recordLayout (withRecord 0x3004#32 0#32 0x3000#32).mem 0x2000#32).addr + 2#32 := by decide

/-- In-line records: MOVE of the record's own words. -/
theorem witness_ReturnFromBusFault_inline : ∃ (s : State), Plain s ∧ s.resume = none ∧ s.delay = none ∧
    isInline true 15#4 s = true ∧ (∀ k, k < 4 → Fetchable s (operandAddress 15#4 s + BitVec.ofNat 32 (4 * k))) := by
  refine ⟨quiet, quiet_plain, rfl, rfl, rfl, ?_⟩
  intro k hk
  have h : ∀ n, n < 4 → (operandAddress 15#4 quiet + BitVec.ofNat 32 (4 * n)).getLsbD 0 = false := by decide
  exact fetchable_of rfl rfl rfl (h k hk)

/-- Another agent writes before each of the two cycles of a load or store at 0x1003. -/
def shared : State :=
  { quiet with outside := [[(0x1003, 1#8), (0x1004, 2#8)], [(0x1003, 3#8), (0x1004, 4#8), (0x80000000, 5#8)]] }

theorem witness_OutsideWrites : ∃ (s : State) (r : RegNo) (a : Word) (k : Nat) (w₁ w₂ : List Host.Cell)
    (rest : List (List Host.Cell)), memWf s.mem = true ∧ s.mmu.enable = false ∧ s.mmu.testMode = false ∧ s.steps = [] ∧
    s.mmuMap = [] ∧ s.outside = w₁ :: w₂ :: rest ∧ s.resume = none ∧ s.delay = none ∧ s.prefixAddr = none ∧
    s.flags.b = false ∧ a = readReg r s ∧ k = 4 - a.toNat % 4 ∧ k ≠ 4 ∧ Readable s a 4 ∧ Writable s a 1 ∧
    storeSuppressed s = false :=
  ⟨shared, 3#4, 0x1003#32, 1, _, _, _, rfl, rfl, rfl, rfl, rfl, rfl, rfl, rfl, rfl, rfl, by decide, by decide, by decide,
    readable_of_map rfl _ _, writable_of_map rfl _ _, rfl⟩

theorem witness_OutsideWrites_aligned : ∃ (r : RegNo) (a : Word), a = readReg r shared ∧ 4 - a.toNat % 4 = 4 ∧
    Readable shared a 4 := ⟨1#4, 0x2000#32, by decide, by decide, readable_of_map rfl _ _⟩


end Sys2Proof.Tests
end

section
/-! O60: what another agent writes between two bus cycles. First the cycles, the data accesses and the instruction ends that
hold while another agent writes; then MOVE.D from memory and the byte store. -/

namespace Sys2Proof.Proofs

open Sys2Proof.Machine Sys2Proof.Laws

/-! ## Bus cycles while another agent writes (00_scope.md R15, 20_memory.md R89) -/

/-- `Plain` without its last clause, since another agent may write, and with hardware breakpoints off. -/
structure SharedPlain (s : State) : Prop where
  /-- R_MMU_ENABLE is 0. -/
  mmuOff : s.mmu.enable = false
  /-- R_TEST_MODE is 0. -/
  testOff : s.mmu.testMode = false
  /-- No single-step bus fault is signalled. -/
  noSingleStep : s.steps = []
  /-- No address is an MMU register. -/
  noWindows : s.mmuMap = []
  /-- B is 0: no cycle is compared with BAR. -/
  noBreakpoint : s.flags.b = false

theorem sharedPlain_popOutside {s : State} (h : SharedPlain s) : SharedPlain (popOutside s) :=
  ⟨by simpa using h.mmuOff, by simpa using h.testOff, by simpa using h.noSingleStep, by simpa using h.noWindows,
    by simpa using h.noBreakpoint⟩

theorem readable_popOutside {s : State} {a : Word} {n : Nat} (h : Readable s a n) : Readable (popOutside s) a n :=
  fun i hi => by simpa [regionKind] using h i hi

theorem writable_popOutside {s : State} {a : Word} {n : Nat} (h : Writable s a n) : Writable (popOutside s) a n :=
  fun i hi => by simpa [regionKind] using h i hi

/-- The first bytes of a readable datum are readable. -/
theorem readable_of_le {s : State} {a : Word} {n k : Nat} (h : Readable s a n) (hk : k ≤ n) : Readable s a k :=
  fun i hi => h i (by omega)

/-- The bytes of a readable datum after the first `k` are readable. -/
theorem readable_suffix {s : State} {a : Word} {n : Nat} (h : Readable s a n) (k : Nat) :
    Readable s (a + BitVec.ofNat 32 k) (n - k) := fun i hi => by
  rw [physIndex_add]
  exact h (k + i) (by omega)

section
variable {s : State} (h : SharedPlain s)
include h

/-- With B clear the comparison with BAR changes nothing (60_exceptions.md R464). -/
theorem noteBreakpoint_shared (a : Word) : noteBreakpoint a s = s := by
  simp [noteBreakpoint, h.noBreakpoint]

theorem popStep_shared : popStep s = (false, s) := by
  simp [popStep, h.noSingleStep]

theorem translate_shared (a : Word) (write : Bool) : Machine.translate a write s = .ok a s := by
  simp [Machine.translate, h.mmuOff, h.testOff]

theorem exactWindow_shared (pa : Word) (n : Nat) : exactWindow s pa n = none := by
  simp [exactWindow, h.noWindows]

theorem touchesWindow_shared (pa : Word) (n : Nat) : touchesWindow s pa n = false := by
  simp [touchesWindow, h.noWindows]

/-- A read cycle sees memory with the writes listed before it made. -/
theorem busCycle_read_shared {a : Word} {n : Nat} (hr : Readable s a n) :
    busCycle none a n s = .ok (loadBytes (popOutside s).mem a n) a (popOutside s) := by
  have hp := sharedPlain_popOutside h
  simp [busCycle, noteBreakpoint_shared h, popStep_shared hp, translate_shared hp, physRead, exactWindow_shared hp,
    touchesWindow_shared hp, accessRefusal_readable (readable_popOutside hr)]

/-- A write cycle stores into memory with the writes listed before it made. -/
theorem busCycle_write_shared {a : Word} {n : Nat} (v : Word) (hw : Writable s a n) :
    busCycle (some v) a n s = .ok 0#32 a { popOutside s with
      mem := storeBytes (popOutside s).mem a (lowBytes n v) n, stores := noteStore s.stores a n } := by
  have hp := sharedPlain_popOutside h
  simp [busCycle, noteBreakpoint_shared h, popStep_shared hp, translate_shared hp, physWrite, exactWindow_shared hp,
    touchesWindow_shared hp, accessRefusal_writable (writable_popOutside hw)]

/-! ## Data accesses while another agent writes (20_memory.md R73) -/

/-- A read in one cycle follows the first writes. -/
theorem dataRead_shared_whole (c : Ctx) {a : Word} {n : Nat} (hr : Readable s a n) (hc : crosses a n = false) :
    dataRead c none a n s = .done (loadBytes (popOutside s).mem a n) (popOutside s) := by
  simp [dataRead, hc, readCycle, busCycle_read_shared h hr]

/-- A split read takes its first bytes before the second writes and the others after them. -/
theorem dataRead_shared_split (c : Ctx) {a : Word} {n : Nat} (hr : Readable s a n) (hc : crosses a n = true) :
    dataRead c none a n s = .done
      (loadBytes (popOutside s).mem a (firstPart a) |||
        loadBytes (popOutside (popOutside s)).mem (a + BitVec.ofNat 32 (firstPart a)) (n - firstPart a) <<<
          (8 * firstPart a))
      (popOutside (popOutside s)) := by
  have hfirst := busCycle_read_shared h (readable_of_le hr (crosses_iff.1 hc).le)
  have hsecond := busCycle_read_shared (sharedPlain_popOutside h) (readable_popOutside (readable_suffix hr (firstPart a)))
  simp only [dataRead, hc, if_true, readCycle, hfirst, Act.andThen, readSecond, hsecond]

/-- A write in one cycle follows the first writes. -/
theorem dataWrite_shared_whole (c : Ctx) {a : Word} {n : Nat} (v : Word) (hw : Writable s a n) (hc : crosses a n = false) :
    dataWrite c none a n v s = .done () { popOutside s with
      mem := storeBytes (popOutside s).mem a (lowBytes n (lowBytes n v)) n, stores := noteStore s.stores a n } := by
  simp [dataWrite, hc, writeCycle, busCycle_write_shared h _ hw]

end

/-- A dword is split except where all four bytes come before the next boundary. -/
theorem crosses_dword (a : Word) : crosses a 4 = decide (firstPart a ≠ 4) := by
  simp only [crosses, firstPart]
  exact decide_eq_decide.2 (by omega)

/-- A byte is never split. -/
theorem crosses_byte (a : Word) : crosses a 1 = false := by
  simp only [crosses, decide_eq_false_iff_not]
  omega

/-! ## The list of another agent's writes (log 43) -/

/-- Where another agent's writes reach depends on the memory map alone. -/
theorem outsideWrote_of_physMap {s t : State} (h : t.physMap = s.physMap) {w m m' : List Host.Cell}
    (hw : OutsideWrote t w m m') : OutsideWrote s w m m' := by
  have hk : regionKind t = regionKind s := by
    funext x
    simp only [regionKind, h]
  unfold OutsideWrote afterOutside at hw ⊢
  rwa [hk] at hw

/-- The writes before the next cycle are made and leave the list. -/
theorem popOutside_cons {s : State} {w : List Host.Cell} {rest : List (List Host.Cell)} (hm : memWf s.mem = true)
    (hs : s.outside = w :: rest) :
    ∃ m, OutsideWrote s w s.mem m ∧ popOutside s = { s with mem := m, outside := rest } := by
  obtain ⟨hw, hform⟩ := popOutside_spec s hm
  rw [hs] at hw hform
  exact ⟨_, hw, hform⟩

/-- The writes before the next two cycles, the second made to the memory that the first have left. -/
theorem popOutside_cons_cons {s : State} {w₁ w₂ : List Host.Cell} {rest : List (List Host.Cell)} (hm : memWf s.mem = true)
    (hs : s.outside = w₁ :: w₂ :: rest) :
    ∃ m₁ m₂, OutsideWrote s w₁ s.mem m₁ ∧ OutsideWrote s w₂ m₁ m₂ ∧
      popOutside s = { s with mem := m₁, outside := w₂ :: rest } ∧
      popOutside (popOutside s) = { s with mem := m₂, outside := rest } := by
  obtain ⟨m₁, hw₁, hpop₁⟩ := popOutside_cons hm hs
  obtain ⟨m₂, hw₂, hpop₂⟩ := popOutside_cons (s := { s with mem := m₁, outside := w₂ :: rest }) hw₁.1 rfl
  exact ⟨m₁, m₂, hw₁, outsideWrote_of_physMap rfl hw₂, hpop₁, hpop₁ ▸ hpop₂⟩

/-! ## The flags of a moved value, from bits to numbers -/

theorem toNat_truncSize (m : Size) (v : Word) : (truncSize m v).toNat = unsignedAt m v := by
  have hv := v.isLt
  cases m <;> simp only [truncSize, unsignedAt, widthOf, BitVec.toNat_setWidth] <;> omega

theorem zeroExtended_eq_truncSize (m : Size) (v : Word) : zeroExtended m v = truncSize m v := by
  apply BitVec.eq_of_toNat_eq
  rw [toNat_truncSize, zeroExtended, patternAt, BitVec.toNat_ofInt]
  cases m <;> simp only [unsignedAt, widthOf] <;> omega

/-- The negative numbers are the upper half of the patterns. -/
theorem signedAt_neg_iff (m : Size) (v : Word) : signedAt m v < 0 ↔ 2 ^ (widthOf m - 1) ≤ unsignedAt m v := by
  have hlt : (unsignedAt m v : Int) < 2 ^ widthOf m := mod_cast Nat.mod_lt _ (Nat.two_pow_pos _)
  unfold signedAt
  split <;> omega

/-- The most significant bit is the sign of the number. -/
theorem signedAt_neg_eq_msbSize (m : Size) (v : Word) : decide (signedAt m v < 0) = msbSize m v := by
  have bit (i : Nat) : v.getLsbD i = decide (v.toNat / 2 ^ i % 2 = 1) := by
    rw [← BitVec.testBit_toNat, Nat.testBit_eq_decide_div_mod_eq]
  rw [Bool.eq_iff_iff, decide_eq_true_eq, signedAt_neg_iff]
  cases m <;> simp only [msbSize, bit, decide_eq_true_eq, unsignedAt, widthOf] <;> omega

/-- A value is zero at a size when its truncation is. -/
theorem unsignedAt_zero_eq (m : Size) (v : Word) : decide (unsignedAt m v = 0) = (truncSize m v == 0#32) := by
  rw [← toNat_truncSize, Bool.eq_iff_iff, decide_eq_true_eq, beq_iff_eq, BitVec.toNat_eq]
  rfl

/-- The flags that clear V and C are those of the number that the result is (10_state.md R39). -/
theorem plainResult_eq_setNZ00 (m : Size) (f : Flags) (r : Word) : plainResult m f r = (r, setNZ00 m r f) := by
  simp only [plainResult, flagsOf, signedAt_neg_eq_msbSize, unsignedAt_zero_eq, setNZ00, setNZ, zeroFlag]
  rfl

/-- MOVE's result, in the words of the claims (41_data_transfer.md R244). -/
theorem calcMove_truncSize (m : Size) (f : Flags) (d v : Word) : calcMove m f d (truncSize m v) = movedOf m f v := by
  rw [movedOf, plainResult_eq_setNZ00, zeroExtended_eq_truncSize, calcMove]

/-! ## Words with nothing pending -/

theorem exec_moveDMem_eq_aluMem (d : RegNo) (md : Bool) (r : RegNo) (s : State) :
    exec (.moveDMem d md r) s = aluMem (formMove .dword) (calcMove .dword) (encode (.moveDMem d md r)) d md r s := rfl

theorem exec_moveBStore_eq_storeReg (r : RegNo) (md : Bool) (d : RegNo) (s : State) :
    exec (.moveBStore r md d) s = storeReg .byte (encode (.moveBStore r md d)) r md d s := rfl

/-- No address handed over, no delay slot, no restart. -/
structure NothingPending (s : State) : Prop where
  /-- The word is not a restarted one. -/
  noRestart : s.resume = none
  /-- It stands in no delay slot. -/
  noSlot : s.delay = none
  /-- No word before it has handed over an address. -/
  noPrefix : s.prefixAddr = none

section
variable {s : State} (h : NothingPending s)
include h

theorem operandAddress_nothingPending (r : RegNo) : operandAddress r s = readReg r s := by
  simp [operandAddress, restartCycle, h.noRestart, h.noPrefix]

theorem operandRefusal_nothingPending (md : Bool) (r : RegNo) : operandRefusal md r s = none :=
  operandRefusal_none (fun hd => by simp [h.noSlot] at hd) fun _ _ => h.noPrefix

/-- The mode `[Rn]` reads at the register and updates nothing (40_addressing.md R203). -/
theorem loadOperand_indirect (c : Ctx) (r : RegNo) (n : Nat) {v : Word} {s₁ : State}
    (hread : dataRead c none (readReg r s) n s = .done v s₁) : loadOperand c false r n s = .done v s₁ := by
  have hr : restartCycle s = none := by simp [restartCycle, h.noRestart]
  simp [loadOperand, operandRefusal_nothingPending h, operandAddress_nothingPending h, hr, readOperand, isInline, hread,
    Act.andThen, updateAddress]

/-- The mode `[Rn]` writes at the register and updates nothing (40_addressing.md R207). -/
theorem storeOperand_indirect (c : Ctx) (r : RegNo) (n : Nat) {v : Word} {s₁ : State} (hx : storeSuppressed s = false)
    (hwrite : dataWrite c none (readReg r s) n v s = .done () s₁) : storeOperand c false r n v s = .done () s₁ := by
  have hr : restartCycle s = none := by simp [restartCycle, h.noRestart]
  simp [storeOperand, operandRefusal_nothingPending h, operandAddress_nothingPending h, hr, hx, hwrite, Act.andThen,
    updateAddress]

/-- MOVE.D [Rs],Rd once its read is known, Rd not PC. -/
theorem exec_moveDMem_indirect {d : RegNo} (hd : d ≠ 15#4) (r : RegNo) {v : Word} {s₁ : State} (hslot : s₁.delay = none)
    (hread : ∀ c, dataRead c none (readReg r s) 4 s = .done v s₁) :
    exec (.moveDMem d false r) s = .next (operandEnd .dword 4 d false r (movedOf .dword s.flags v) s s₁) := by
  have href : memoryRefusal (formMove .dword) d false r s = none := by
    simp [memoryRefusal, memoryDest, destRefusal, formMove, formSized, Dest.writes, Dest.reads, h.noPrefix, hd]
  have hdest : memoryDest (formMove .dword) d false r s = d := by
    simp [memoryDest, formMove, formSized]
  have hload := fun c => loadOperand_indirect h c r (sizeBytes (formMove .dword).access) (hread c)
  simp only [exec_moveDMem_eq_aluMem, aluMem, href, hdest, hload, Act.finish]
  rw [writeBack_plain _ _ _ (by simp [SlotOk, hslot]) fun _ => hd]
  exact congrArg (fun x => Host.Outcome.next (operandEnd .dword 4 d false r x s s₁))
    (calcMove_truncSize .dword s.flags (readReg d s) v)

/-- MOVE.B Rs,[Rd] once its write is known. -/
theorem exec_moveBStore_indirect (r d : RegNo) {s₁ : State} (hx : storeSuppressed s = false) (hslot : s₁.delay = none)
    (hwrite : ∀ c, dataWrite c none (readReg d s) 1 (readReg r s) s = .done () s₁) :
    exec (.moveBStore r false d) s = .next (finished (pcPlus2 s) false false s₁) := by
  simp only [exec_moveBStore_eq_storeReg, storeReg, sizeBytes, storeOperand_indirect h _ d 1 hx (hwrite _), Act.finish]
  exact complete_plain _ _ _ (by simp [SlotOk, hslot])

/-! ## The two instructions of the claim -/

/-- MOVE.D from memory: one cycle at an aligned address, else two with another agent's writes between them. -/
theorem exec_moveDMem_shared (hs : SharedPlain s) {d : RegNo} (hd : d ≠ 15#4) (r : RegNo) {a : Word} {k : Nat}
    (ha : a = readReg r s) (hk : k = firstPart a) (hr : Readable s a 4) :
    (k = 4 → exec (.moveDMem d false r) s = .next
      (operandEnd .dword 4 d false r (movedOf .dword s.flags (loadBytes (popOutside s).mem a 4)) s (popOutside s))) ∧
    (k ≠ 4 → exec (.moveDMem d false r) s = .next
      (operandEnd .dword 4 d false r (movedOf .dword s.flags
        (loadBytes (popOutside s).mem a k |||
          loadBytes (popOutside (popOutside s)).mem (a + BitVec.ofNat 32 k) (4 - k) <<< (8 * k))) s
        (popOutside (popOutside s)))) := by
  subst ha hk
  constructor
  · intro hwhole
    have hc : crosses (readReg r s) 4 = false := by simp [crosses_dword, hwhole]
    exact exec_moveDMem_indirect h hd r (by simp [h.noSlot]) fun c => dataRead_shared_whole hs c hr hc
  · intro hsplit
    have hc : crosses (readReg r s) 4 = true := by simp [crosses_dword, hsplit]
    exact exec_moveDMem_indirect h hd r (by simp [h.noSlot]) fun c => dataRead_shared_split hs c hr hc

/-- A byte store: its byte, and no other, differs from memory with the first writes made. -/
theorem exec_moveBStore_shared (hs : SharedPlain s) (hm : memWf (popOutside s).mem = true) (r d : RegNo)
    (hw : Writable s (readReg d s) 1) (hx : storeSuppressed s = false) :
    ∃ m st, StoredAt (readReg d s) 1 (readReg r s) (popOutside s).mem m ∧
      exec (.moveBStore r false d) s =
        .next (finished (pcPlus2 s) false false { popOutside s with mem := m, stores := st }) := by
  refine ⟨_, _, ?_, exec_moveBStore_indirect h r d hx (by simp [h.noSlot])
    fun c => dataWrite_shared_whole hs c _ hw (crosses_byte _)⟩
  have hstored := storedAt_storeBytes hm (readReg d s) (lowBytes 1 (lowBytes 1 (readReg r s))) 1 (by decide)
  exact storedAt_lowBytes (by decide) (storedAt_lowBytes (by decide) hstored)

end

/-- Settles O60: each bus cycle makes the writes listed before it, so a load in one cycle sees the first only, a split load
the second in its later bytes, and a byte store comes after the first. -/
theorem outsideWrites : Obligations.OutsideWrites := by
  unfold Obligations.OutsideWrites
  intro s d r a k w₁ w₂ rest hm hmmu htest hsteps hmap hout hres hdelay haddr hb
  have hs : SharedPlain s := ⟨hmmu, htest, hsteps, hmap, hb⟩
  have hp : NothingPending s := ⟨hres, hdelay, haddr⟩
  obtain ⟨m₁, m₂, hw₁, hw₂, hpop₁, hpop₂⟩ := popOutside_cons_cons hm hout
  constructor
  · intro hd ha hk hr
    have hload := exec_moveDMem_shared hp hs hd r ha hk hr
    rw [hpop₂, hpop₁] at hload
    exact ⟨m₁, m₂, hw₁, hw₂, hload⟩
  · rintro rfl hw hx
    obtain ⟨m, st, hstored, hexec⟩ := exec_moveBStore_shared hp hs (by rw [hpop₁]; exact hw₁.1) r d hw hx
    rw [hpop₁] at hstored hexec
    exact ⟨m₁, _, hw₁, hstored, rfl, hexec⟩

end Sys2Proof.Proofs
end

section
/-! O6 and O9: what any word can do. `During` and `Kept` say what the parts of a word leave alone, `Ends` lists the ways
it can stop or go on, and `exec_ends` says that there are no others. A claim about every step is then a case analysis of
`step_next`. -/

namespace Sys2Proof.Proofs

-- Declarations are checked one after another: many at once need more threads than the memory limit of the check allows.
set_option Elab.async false

open Sys2Proof.Machine Sys2Proof.Laws

/-! ## What the parts of a word leave alone -/

/-- What user mode may not change is the same in both states (10_state.md R66). -/
structure Guarded (s t : State) : Prop where
  /-- IBR. -/
  ibr : t.sregs.ibr = s.sregs.ibr
  /-- BAR. -/
  bar : t.sregs.bar = s.sregs.bar
  /-- Interrupt enable. -/
  i : t.flags.i = s.flags.i
  /-- Breakpoint enable. -/
  b : t.flags.b = s.flags.b
  /-- NMI enable. -/
  m : t.flags.m = s.flags.m

theorem Guarded.refl (s : State) : Guarded s s := ⟨rfl, rfl, rfl, rfl, rfl⟩

theorem Guarded.trans {s t u : State} (h : Guarded s t) (h' : Guarded t u) : Guarded s u :=
  ⟨h'.ibr.trans h.ibr, h'.bar.trans h.bar, h'.i.trans h.i, h'.b.trans h.b, h'.m.trans h.m⟩

/-- The cells that only the end of a word or an exception sets are the same, and memory stays in its canonical form. -/
structure SameCells (s t : State) : Prop where
  /-- PC. -/
  pc : t.pc = s.pc
  /-- The pending delayed transfer. -/
  delay : t.delay = s.delay
  /-- The restart being run. -/
  resume : t.resume = s.resume
  /-- The hidden CPU status registers. -/
  hidden : t.hidden = s.hidden
  /-- `SR_OFF_*`. -/
  layout : t.layout = s.layout
  /-- Memory stays in its canonical form. -/
  memory : memWf s.mem = true → memWf t.mem = true

theorem SameCells.trans {s t u : State} (h : SameCells s t) (h' : SameCells t u) : SameCells s u :=
  ⟨h'.pc.trans h.pc, h'.delay.trans h.delay, h'.resume.trans h.resume, h'.hidden.trans h.hidden,
    h'.layout.trans h.layout, fun hm => h'.memory (h.memory hm)⟩

/-- What a word keeps up to its end, its last writes included: user mode changes nothing that is protected. -/
structure Kept (s t : State) : Prop extends SameCells s t where
  /-- The protection of user mode. -/
  guarded : s.mode = .user → Guarded s t

/-- What a word keeps before its last writes: the mode and, in both modes, what user mode may not change. -/
structure During (s t : State) : Prop extends SameCells s t where
  /-- The operation mode. -/
  mode : t.mode = s.mode
  /-- IBR, BAR, I, B and M. -/
  guarded : Guarded s t

theorem During.toKept {s t : State} (h : During s t) : Kept s t := ⟨h.toSameCells, fun _ => h.guarded⟩

theorem Kept.trans {s t u : State} (h : During s t) (h' : Kept t u) : Kept s u :=
  ⟨h.toSameCells.trans h'.toSameCells, fun hu => h.guarded.trans (h'.guarded (h.mode.trans hu))⟩

theorem During.trans {s t u : State} (h : During s t) (h' : During t u) : During s u :=
  ⟨h.toSameCells.trans h'.toSameCells, h'.mode.trans h.mode, h.guarded.trans h'.guarded⟩

/-- A state with the same cells and protected fields. -/
theorem During.of_same {s t : State} (guarded : Guarded s t) (memory : memWf s.mem = true → memWf t.mem = true)
    (pc : t.pc = s.pc := by simp) (delay : t.delay = s.delay := by simp) (resume : t.resume = s.resume := by simp)
    (hidden : t.hidden = s.hidden := by simp) (layout : t.layout = s.layout := by simp)
    (mode : t.mode = s.mode := by simp) : During s t :=
  ⟨⟨pc, delay, resume, hidden, layout, memory⟩, mode, guarded⟩

theorem Guarded.of_same {s t : State} (sregs : t.sregs = s.sregs := by simp) (flags : t.flags = s.flags := by simp) :
    Guarded s t := by
  constructor <;> simp only [sregs, flags]

theorem During.refl (s : State) : During s s := .of_same (.refl s) id

theorem During.writeReg (r : RegNo) (v : Word) (s : State) : During s (writeReg r v s) :=
  .of_same .of_same (by simp)

theorem During.setMof (v : Word) (s : State) : During s { s with sregs := { s.sregs with mof := v } } :=
  .of_same ⟨rfl, rfl, rfl, rfl, rfl⟩ id

theorem During.noteBreakpoint (a : Word) (s : State) : During s (noteBreakpoint a s) :=
  .of_same .of_same (by simp)

theorem During.noteSuppressed (s : State) : During s (noteSuppressed s) :=
  .of_same ⟨rfl, rfl, rfl, rfl, rfl⟩ id

theorem During.updateAddress (md : Bool) (r : RegNo) (n : Nat) (a : Word) (s : State) :
    During s (updateAddress md r n a s) := by
  unfold Machine.updateAddress
  split
  · split
    · exact .writeReg r a s
    · exact .writeReg r _ s
  · exact .refl s

/-! ## One bus cycle -/

theorem foldl_outsideByte_keeps_wf (s : State) {m : List Host.Cell} (h : memWf m = true) (cells : List Host.Cell) :
    memWf (cells.foldl (outsideByte s) m) = true :=
  (outsideWrote_foldl s h cells).1

theorem During.popOutside (s : State) : During s (popOutside s) := by
  unfold Machine.popOutside
  split
  · exact .refl s
  · next cells _ _ => exact .of_same .of_same fun hm => foldl_outsideByte_keeps_wf s hm cells

theorem During.popStep (s : State) : During s (popStep s).2 := by
  unfold Machine.popStep
  split
  · exact .refl s
  · exact .of_same .of_same id

theorem During.noteException (s : State) (va : Word) (l : Lookup) : During s (noteException s va l) := by
  unfold Machine.noteException
  split
  · exact .refl s
  all_goals exact .of_same .of_same id

theorem During.noteCause (s : State) (l : Lookup) : During s (noteCause s l) := by
  unfold Machine.noteCause
  split
  · exact .refl s
  all_goals exact .of_same .of_same id

/-- The state of a translation is that of a part of a word. -/
def TranslationKeeps (s : State) : Translation → Prop
  | .ok _ t | .fault t | .gated t => During s t

theorem translate_keeps (va : Word) (write : Bool) (s : State) : TranslationKeeps s (translate va write s) := by
  unfold Machine.translate
  split
  · split
    · exact .refl s
    · split
      · exact .refl s
      · split
        · exact .noteException s va _
        · exact .noteException s va _
  · split
    · exact .noteCause s _
    · exact .refl s

/-- The state of a physical access is that of a part of a word. -/
def AccessKeeps (s : State) : Access → Prop
  | .ok _ t => During s t
  | .refused _ => True

theorem mmuRead_during (w : MmuWindow) (s : State) : During s (mmuRead w s).2 := by
  unfold mmuRead
  split
  · exact .refl s
  · exact .of_same .of_same id

theorem physRead_keeps (pa : Word) (n : Nat) (s : State) : AccessKeeps s (physRead pa n s) := by
  unfold physRead
  split
  · exact mmuRead_during _ s
  · split
    · trivial
    · split
      · trivial
      · exact During.refl s

theorem physWrite_keeps (pa : Word) (n : Nat) (v : Word) (s : State) : AccessKeeps s (physWrite pa n v s) := by
  unfold physWrite
  split
  · split
    · exact During.of_same .of_same id
    · trivial
  · split
    · trivial
    · split
      · trivial
      · exact During.of_same .of_same fun hm => storeBytes_keeps_wf pa v hm n

/-- The state of a bus cycle, done or faulted, is that of a part of a word. -/
def CycleKeeps (s : State) : Cycle → Prop
  | .ok _ _ t | .fault _ t => During s t
  | .refused _ => True

theorem busCycle_keeps (datum : Option Word) (a : Word) (n : Nat) (s : State) :
    CycleKeeps s (busCycle datum a n s) := by
  have hpre : During s (popStep (popOutside (noteBreakpoint a s))).2 :=
    ((During.noteBreakpoint a s).trans (.popOutside _)).trans (.popStep _)
  have htrans := translate_keeps a datum.isSome (popStep (popOutside (noteBreakpoint a s))).2
  unfold busCycle
  dsimp only
  split
  · next ht =>
    rw [ht] at htrans
    exact hpre.trans htrans
  · next ht =>
    rw [ht] at htrans
    split
    · exact hpre.trans htrans
    · trivial
  · next pa s' ht =>
    rw [ht] at htrans
    split
    · exact hpre.trans htrans
    · split
      · next v s'' ha =>
        have hacc : AccessKeeps s' (.ok v s'') := by
          rw [← ha]
          cases datum with
          | none => exact physRead_keeps pa n s'
          | some v => exact physWrite_keeps pa n _ s'
        exact (hpre.trans htrans).trans hacc
      · trivial

/-! ## How a word can end -/

/-- The addresses that a word computes its successor from are even (10_state.md R32). -/
def AddressesEven (s : State) : Prop :=
  s.pc.getLsbD 0 = false ∧ ∀ r, s.resume = some r → r.next.getLsbD 0 = false

theorem AddressesEven.of_same {s t : State} (h : SameCells s t) (he : AddressesEven s) : AddressesEven t :=
  ⟨h.pc ▸ he.1, h.resume ▸ he.2⟩

/-- A delayed transfer holds events back while it is pending (10_state.md R50). -/
def Ending.HoldsWindow (e : Ending) : Prop := ∀ t ret, e.transfer = .delayed t ret → e.window = true

/-- How a word that begins in `s` can end: it stops, it is completed, it hands over an address, it sets up a restart, or
one of its cycles has bus-faulted (00_scope.md R16). -/
inductive Ends (s : State) : Host.Outcome State Fault Refusal → Prop
  | fault (r : Fault) : Ends s (.fault r)
  | refused (r : Refusal) : Ends s (.refused r)
  | complete {s' : State} {e : Ending} (kept : Kept s s') (seqEven : AddressesEven s → e.seq.getLsbD 0 = false)
      (window : Ending.HoldsWindow e) : Ends s (complete e s')
  | handsOver {s' : State} {seq : Word} (addr : Word) (during : During s s')
      (seqEven : AddressesEven s → seq.getLsbD 0 = false) : Ends s (completePrefix seq addr s')
  | restarts {s' : State} (i : Instr) (r : StatusRecord) (kept : Kept s s') : Ends s (restart (memoryForm i) r s')
  | busFault {s' : State} (b : BusFault) (during : During s s') : Ends s (takeException (.busFault b) s')

theorem Ends.after {s t : State} {o : Host.Outcome State Fault Refusal} (h : During s t) (ho : Ends t o) : Ends s o := by
  cases ho with
  | fault r => exact .fault r
  | refused r => exact .refused r
  | complete kept seqEven window => exact .complete (.trans h kept) (fun he => seqEven (he.of_same h.toSameCells)) window
  | handsOver addr during seqEven => exact .handsOver addr (h.trans during) fun he => seqEven (he.of_same h.toSameCells)
  | restarts i r kept => exact .restarts i r (.trans h kept)
  | busFault b during => exact .busFault b (h.trans during)

/-- A part of a word: it is done and has kept what parts keep, or it ends the word. -/
def Runs {α : Type} (s : State) : Act α → Prop
  | .done _ t => During s t
  | .stop o => Ends s o

theorem Runs.andThen {α β : Type} {s : State} {x : Act α} {k : α → State → Act β} (hx : Runs s x)
    (hk : ∀ a t, During s t → Runs t (k a t)) : Runs s (x.andThen k) := by
  cases x with
  | stop o => exact hx
  | done a t =>
    have hka := hk a t hx
    simp only [Act.andThen]
    cases hkat : k a t with
    | done b u =>
      rw [hkat] at hka
      exact During.trans hx hka
    | stop o =>
      rw [hkat] at hka
      exact Ends.after hx hka

theorem Runs.finish {α : Type} {s : State} {x : Act α} {k : α → State → Host.Outcome State Fault Refusal}
    (hx : Runs s x) (hk : ∀ a t, During s t → Ends s (k a t)) : Ends s (x.finish k) := by
  cases x with
  | stop o => exact hx
  | done a t => exact hk a t hx

theorem runs_done {α : Type} (a : α) (s : State) : Runs s (.done a s) := During.refl s

theorem Runs.after {α : Type} {s t : State} {x : Act α} (h : During s t) (hx : Runs t x) : Runs s x := by
  cases x with
  | stop o => exact Ends.after h hx
  | done a u => exact During.trans h hx

/-! ## Data accesses -/

theorem raiseData_runs {α : Type} {s t : State} (c : Ctx) (b : BusFault) (h : During s t) :
    Runs s (raiseData (α := α) c b t) := by
  unfold raiseData
  split
  · exact Ends.refused _
  · exact Ends.busFault b h

theorem readCycle_runs (c : Ctx) (e : Word) (second : Bool) (first a : Word) (n : Nat) (s : State) :
    Runs s (readCycle c e second first a n s) := by
  have hc := busCycle_keeps none a n s
  unfold readCycle
  split
  · next h =>
    rw [h] at hc
    exact hc
  · next h =>
    rw [h] at hc
    exact raiseData_runs c _ hc
  · exact Ends.refused _

theorem writeCycle_runs (c : Ctx) (e : Word) (second : Bool) (datum a : Word) (n : Nat) (v : Word) (s : State) :
    Runs s (writeCycle c e second datum a n v s) := by
  have hc := busCycle_keeps (some v) a n s
  unfold writeCycle
  split
  · next h =>
    rw [h] at hc
    exact hc
  · next h =>
    rw [h] at hc
    exact raiseData_runs c _ hc
  · exact Ends.refused _

theorem readSecond_runs (c : Ctx) (a : Word) (n : Nat) (first : Word) (s : State) : Runs s (readSecond c a n first s) :=
  (readCycle_runs c a true first _ _ s).andThen fun _ t _ => runs_done _ t

theorem dataRead_runs (c : Ctx) (restart : Option RestartCycle) (a : Word) (n : Nat) (s : State) :
    Runs s (dataRead c restart a n s) := by
  unfold dataRead
  split
  · split
    · exact readSecond_runs c a n _ s
    · exact (readCycle_runs ..).andThen fun _ t _ => readSecond_runs c a n _ t
  · exact readCycle_runs ..

theorem writeSecond_runs (c : Ctx) (a : Word) (n : Nat) (datum : Word) (s : State) :
    Runs s (writeSecond c a n datum s) :=
  writeCycle_runs ..

theorem dataWrite_runs (c : Ctx) (restart : Option RestartCycle) (a : Word) (n : Nat) (v : Word) (s : State) :
    Runs s (dataWrite c restart a n v s) := by
  unfold dataWrite
  dsimp only
  split
  · split
    · exact writeSecond_runs ..
    · exact (writeCycle_runs ..).andThen fun _ t _ => writeSecond_runs c a n _ t
  · exact writeCycle_runs ..

/-! ## Fetching and in-line data -/

theorem fetched_runs (h : Half) (pa : Word) {s t : State} (ht : During s t) : Runs s (fetched h pa t) := by
  unfold fetched
  split
  · exact Ends.refused _
  · exact ht

theorem During.prefetch (p : Option Prefetch) (s : State) : During s { s with prefetch := p } :=
  .of_same .of_same id

section
variable {onFault : Bool → State → Act Half} {s : State} (hf : ∀ single t, During s t → Runs s (onFault single t))
include hf

theorem fetchCycle_runs (a : Word) : Runs s (fetchCycle onFault a s) := by
  have hc := busCycle_keeps none a (if a.getLsbD 1 then 2 else 4) s
  unfold fetchCycle
  split
  · next h =>
    rw [h] at hc
    exact fetched_runs _ _ (During.trans hc (.prefetch _ _))
  · next h =>
    rw [h] at hc
    exact hf _ _ hc
  · exact Ends.refused _

theorem fetchHalf_runs (a : Word) : Runs s (fetchHalf onFault a s) := by
  unfold fetchHalf
  split
  · exact Ends.fault _
  · split
    · split
      · exact fetched_runs _ _ (.prefetch _ s)
      · exact fetchCycle_runs hf a
    · exact fetchCycle_runs hf a

end

theorem fetchInstr_runs (s : State) : Runs s (fetchInstr s) :=
  fetchHalf_runs (onFault := fun single t => .stop (takeException (.busFault (fetchFault s single)) t))
    (fun _ _ h => Ends.busFault _ h) s.pc

theorem inlineHalf_runs (c : Ctx) (e : Word) (second : Bool) (first a : Word) (s : State) :
    Runs s (inlineHalf c e second first a s) :=
  fetchHalf_runs (fun _ _ h => raiseData_runs c _ h) a

theorem inlineSecond_runs (c : Ctx) (a first : Word) (s : State) : Runs s (inlineSecond c a first s) :=
  (inlineHalf_runs ..).andThen fun _ t _ => runs_done _ t

theorem inlineRead_runs (c : Ctx) (restart : Option RestartCycle) (a : Word) (n : Nat) (s : State) :
    Runs s (inlineRead c restart a n s) := by
  unfold inlineRead
  split
  · split
    · exact inlineSecond_runs ..
    · exact (inlineHalf_runs ..).andThen fun _ t _ => inlineSecond_runs ..
  · exact (inlineHalf_runs ..).andThen fun _ t _ => runs_done _ t

/-! ## Operands -/

theorem readOperand_runs (c : Ctx) (inLine : Bool) (restart : Option RestartCycle) (a : Word) (n : Nat) (s : State) :
    Runs s (readOperand c inLine restart a n s) := by
  unfold readOperand
  split
  · exact inlineRead_runs ..
  · exact dataRead_runs ..

theorem loadOperand_runs (c : Ctx) (md : Bool) (r : RegNo) (n : Nat) (s : State) : Runs s (loadOperand c md r n s) := by
  unfold loadOperand
  split
  · exact Ends.refused _
  · exact (readOperand_runs ..).andThen fun _ t _ => During.updateAddress ..

/-- The conditional store: suppressed, it sets P alone (20_memory.md R76). -/
theorem unlessSuppressed_runs {s : State} {x : Act Unit} (hx : Runs s x) :
    Runs s (if storeSuppressed s then .done () (noteSuppressed s) else x) := by
  split
  · exact During.noteSuppressed s
  · exact hx

theorem storeOperand_runs (c : Ctx) (md : Bool) (r : RegNo) (n : Nat) (v : Word) (s : State) :
    Runs s (storeOperand c md r n v s) := by
  unfold storeOperand
  split
  · exact Ends.refused _
  · exact (unlessSuppressed_runs (dataWrite_runs ..)).andThen fun _ t _ => During.updateAddress ..

theorem loadRegs_runs (c : Ctx) (inLine : Bool) (n : Nat) :
    ∀ (restart : Option RestartCycle) (a : Word) (s : State), Runs s (loadRegs c inLine n restart a s) := by
  induction n with
  | zero => exact fun _ _ s => runs_done () s
  | succ n ih => exact fun _ _ s => (readOperand_runs ..).andThen fun _ t _ => .after (.writeReg _ _ t) (ih ..)

theorem storeRegs_runs (c : Ctx) (n : Nat) :
    ∀ (restart : Option RestartCycle) (a : Word) (s : State), Runs s (storeRegs c n restart a s) := by
  induction n with
  | zero => exact fun _ _ s => runs_done () s
  | succ n ih => exact fun _ _ s => (dataWrite_runs ..).andThen fun _ t _ => ih ..

theorem storeRecord_runs (c : Ctx) (r : StatusRecord) (n : Nat) :
    ∀ (restart : Option RestartCycle) (a : Word) (s : State), Runs s (storeRecord c r n restart a s) := by
  induction n with
  | zero => exact fun _ _ s => runs_done () s
  | succ n ih => exact fun _ _ s => (dataWrite_runs ..).andThen fun _ t _ => ih ..

theorem loadRecord_runs (c : Ctx) (inLine : Bool) (restart : Option RestartCycle) (a : Word) (s : State) :
    Runs s (loadRecord c inLine restart a s) :=
  (readOperand_runs ..).andThen fun _ _ _ => (readOperand_runs ..).andThen fun _ _ _ =>
    (readOperand_runs ..).andThen fun _ _ _ => (readOperand_runs ..).andThen fun _ t _ => runs_done _ t

theorem prefixOperand_runs (c : Ctx) (md : Bool) (r : RegNo) (n : Nat) (s : State) :
    Runs s (prefixOperand c md r n s) := by
  refine (readOperand_runs ..).andThen fun v t _ => ?_
  show During t _
  split
  · exact .writeReg ..
  · exact .refl t

/-! ## The address after a word -/

theorem even_add {a : Word} {n : Nat} (ha : a.getLsbD 0 = false) (hn : n % 2 = 0) :
    (a + BitVec.ofNat 32 n).getLsbD 0 = false := by
  rw [← BitVec.testBit_toNat, Nat.testBit_zero] at ha ⊢
  rw [BitVec.toNat_add, BitVec.toNat_ofNat]
  simp at ha ⊢
  omega

theorem even_sub {a : Word} {n : Nat} (ha : a.getLsbD 0 = false) (hn : n % 2 = 0) :
    (a - BitVec.ofNat 32 n).getLsbD 0 = false := by
  rw [← BitVec.testBit_toNat, Nat.testBit_zero] at ha ⊢
  rw [BitVec.toNat_sub, BitVec.toNat_ofNat]
  simp at ha ⊢
  omega

theorem pcPlus2_even {s : State} (h : AddressesEven s) : (pcPlus2 s).getLsbD 0 = false := by
  unfold pcPlus2
  split
  · next r hr => exact h.2 r hr
  · exact even_add h.1 rfl

/-- An operand is a byte or takes whole words. -/
theorem inlineStep_even {n : Nat} (hn : n = 1 ∨ n % 2 = 0) : inlineStep n % 2 = 0 := by
  unfold inlineStep
  split <;> omega

theorem endAddress_even {s : State} (md : Bool) (r : RegNo) {n : Nat} (hn : n = 1 ∨ n % 2 = 0) (h : AddressesEven s) :
    (endAddress md r n s).getLsbD 0 = false := by
  unfold endAddress
  split
  · exact even_add (pcPlus2_even h) (inlineStep_even hn)
  · exact pcPlus2_even h

theorem sizeBytes_one_or_even (m : Size) : sizeBytes m = 1 ∨ sizeBytes m % 2 = 0 := by
  cases m <;> simp [sizeBytes]

theorem endAddress_size_even {s : State} (md : Bool) (r : RegNo) (m : Size) (h : AddressesEven s) :
    (endAddress md r (sizeBytes m) s).getLsbD 0 = false :=
  endAddress_even md r (sizeBytes_one_or_even m) h

/-! ## The last writes of a word -/

/-- The flags that user mode may not change are the same. -/
def SameControl (f f' : Flags) : Prop := f'.i = f.i ∧ f'.b = f.b ∧ f'.m = f.m

theorem During.setFlags {s t : State} (h : During s t) {fl : Flags} (hfl : s.mode = .user → SameControl s.flags fl) :
    Kept s { t with flags := fl } where
  toSameCells := ⟨h.pc, h.delay, h.resume, h.hidden, h.layout, h.memory⟩
  guarded hu := by
    obtain ⟨hi, hb, hm⟩ := hfl hu
    exact ⟨h.guarded.ibr, h.guarded.bar, hi, hb, hm⟩

theorem loadFlags_user {mode : Mode} (hu : mode = .user) (v : Word) (f : Flags) : SameControl f (loadFlags mode v f) := by
  simp [SameControl, loadFlags, hu]

theorem setFlagList_user {mode : Mode} (hu : mode = .user) (k : BitVec 8) (f : Flags) :
    SameControl f (setFlagList mode k f) := by
  simp [SameControl, setFlagList, hu]

theorem clearFlagList_user {mode : Mode} (hu : mode = .user) (k : BitVec 8) (f : Flags) :
    SameControl f (clearFlagList mode k f) := by
  simp [SameControl, clearFlagList, hu]

theorem writeSreg_ibr_user {s : State} (hu : s.mode = .user) (v : Word) : writeSreg .ibr v s = s := by
  simp [writeSreg, hu]

theorem writeSreg_bar_user {s : State} (hu : s.mode = .user) (v : Word) : writeSreg .bar v s = s := by
  simp [writeSreg, hu]

/-- A move to a special register writes IBR, BAR, I and B in supervisor mode only (10_state.md R66). -/
theorem writeSreg_guarded (p : SReg) (v : Word) {s : State} (hu : s.mode = .user) : Guarded s (writeSreg p v s) := by
  cases p with
  | ccr | dccr =>
    obtain ⟨hi, hb, hm⟩ := loadFlags_user hu v s.flags
    exact ⟨rfl, rfl, hi, hb, hm⟩
  | ibr =>
    rw [writeSreg_ibr_user hu]
    exact .refl s
  | bar =>
    rw [writeSreg_bar_user hu]
    exact .refl s
  | _ => exact ⟨rfl, rfl, rfl, rfl, rfl⟩

/-- A move to a special register touches special registers, USP and flags. -/
theorem writeSreg_form (p : SReg) (v : Word) (s : State) : writeSreg p v s =
    { s with sregs := (writeSreg p v s).sregs, usp := (writeSreg p v s).usp, flags := (writeSreg p v s).flags } := by
  cases p with
  | ibr | bar =>
    unfold writeSreg
    dsimp only
    split <;> rfl
  | _ => rfl

theorem writeSreg_kept (p : SReg) (v : Word) (s : State) : Kept s (writeSreg p v s) where
  pc := by rw [writeSreg_form]
  delay := by rw [writeSreg_form]
  resume := by rw [writeSreg_form]
  hidden := by rw [writeSreg_form]
  layout := by rw [writeSreg_form]
  memory := by rw [writeSreg_form]; exact id
  guarded := writeSreg_guarded p v

/-- The mode alone changes. -/
theorem Kept.setMode {s t : State} (h : Kept s t) (m : Mode) : Kept s { t with mode := m } :=
  ⟨⟨h.pc, h.delay, h.resume, h.hidden, h.layout, h.memory⟩, fun hu => .trans (h.guarded hu) .of_same⟩

theorem Kept.setModeIf {s t : State} (h : Kept s t) (c : Bool) (m : Mode) :
    Kept s (if c then { t with mode := m } else t) := by
  split
  · exact h.setMode m
  · exact h

theorem saveLink_kept (k : JumpKind) (seq : Word) (s : State) : Kept s (saveLink k seq s) := by
  unfold saveLink
  dsimp only
  split
  · exact (writeSreg_kept ..).setModeIf _ .user
  · exact (During.refl s).toKept.setModeIf _ .user

theorem restoreMode_kept {s t : State} (r : StatusRecord) (h : During s t) : Kept s (restoreMode r t) :=
  .trans h ⟨⟨rfl, rfl, rfl, rfl, rfl, id⟩, fun _ => ⟨rfl, rfl, rfl, rfl, rfl⟩⟩

/-! ## The ends of the families -/

section
variable {s t : State}

theorem ends_none {seq : Word} {w k : Bool} (h : Kept s t) (hseq : AddressesEven s → seq.getLsbD 0 = false) :
    Ends s (complete { seq := seq, transfer := .none, window := w, keepX := k } t) :=
  .complete h hseq nofun

theorem ends_jump {seq target : Word} {w : Bool} (h : Kept s t) (hseq : AddressesEven s → seq.getLsbD 0 = false) :
    Ends s (complete (ending seq (.jump target) w) t) :=
  .complete h hseq nofun

theorem ends_delayed {seq target : Word} {ret : Bool} (h : Kept s t) (hseq : AddressesEven s → seq.getLsbD 0 = false) :
    Ends s (complete (ending seq (.delayed target ret) true) t) :=
  .complete h hseq fun _ _ _ => rfl

/-- A result and its flags written, or the flags alone. -/
theorem writeBack_ends (f : AluForm) (d : RegNo) (r : Word) {fl : Flags} {seq : Word} (h : During s t)
    (hfl : SameControl s.flags fl) (hseq : AddressesEven s → seq.getLsbD 0 = false) :
    Ends s (writeBack f d r fl seq t) := by
  unfold writeBack
  split
  · split
    · exact ends_jump (h.setFlags fun _ => hfl) hseq
    · exact ends_none ((h.trans (.writeReg ..)).setFlags fun _ => hfl) hseq
  · exact ends_none (h.setFlags fun _ => hfl) hseq

end

/-- A calculation leaves alone the flags that user mode may not change. -/
def KeepsControl (g : Calc) : Prop := ∀ f d s, SameControl f (g f d s).2

theorem calcAdd_keepsControl (m : Size) : KeepsControl (calcAdd m) := fun _ _ _ => ⟨rfl, rfl, rfl⟩
theorem calcSub_keepsControl (m : Size) : KeepsControl (calcSub m) := fun _ _ _ => ⟨rfl, rfl, rfl⟩
theorem calcNeg_keepsControl (m : Size) : KeepsControl (calcNeg m) := fun _ _ _ => ⟨rfl, rfl, rfl⟩
theorem calcMove_keepsControl (m : Size) : KeepsControl (calcMove m) := fun _ _ _ => ⟨rfl, rfl, rfl⟩
theorem calcMovu_keepsControl : KeepsControl calcMovu := fun _ _ _ => ⟨rfl, rfl, rfl⟩
theorem calcAnd_keepsControl (m : Size) : KeepsControl (calcAnd m) := fun _ _ _ => ⟨rfl, rfl, rfl⟩
theorem calcOr_keepsControl (m : Size) : KeepsControl (calcOr m) := fun _ _ _ => ⟨rfl, rfl, rfl⟩
theorem calcXor_keepsControl : KeepsControl calcXor := fun _ _ _ => ⟨rfl, rfl, rfl⟩
theorem calcBound_keepsControl : KeepsControl calcBound := fun _ _ _ => ⟨rfl, rfl, rfl⟩
theorem calcAbs_keepsControl : KeepsControl calcAbs := fun _ _ _ => ⟨rfl, rfl, rfl⟩
theorem calcAddi_keepsControl (k : Nat) : KeepsControl (calcAddi k) := fun _ _ _ => ⟨rfl, rfl, rfl⟩
theorem calcDstep_keepsControl : KeepsControl calcDstep := fun _ _ _ => ⟨rfl, rfl, rfl⟩
theorem calcMstep_keepsControl : KeepsControl calcMstep := fun _ _ _ => ⟨rfl, rfl, rfl⟩
theorem calcAsr_keepsControl (m : Size) : KeepsControl (calcAsr m) := fun _ _ _ => ⟨rfl, rfl, rfl⟩
theorem calcLsl_keepsControl (m : Size) : KeepsControl (calcLsl m) := fun _ _ _ => ⟨rfl, rfl, rfl⟩
theorem calcLsr_keepsControl (m : Size) : KeepsControl (calcLsr m) := fun _ _ _ => ⟨rfl, rfl, rfl⟩
theorem calcBtst_keepsControl : KeepsControl calcBtst := fun _ _ _ => ⟨rfl, rfl, rfl⟩
theorem calcLz_keepsControl : KeepsControl calcLz := fun _ _ _ => ⟨rfl, rfl, rfl⟩
theorem calcSwap_keepsControl : KeepsControl calcSwap := fun _ _ _ => ⟨rfl, rfl, rfl⟩
theorem calcScc_keepsControl (c : Cond) : KeepsControl (calcScc c) := fun _ _ _ => ⟨rfl, rfl, rfl⟩

theorem aluCore_ends (f : AluForm) {g : Calc} (hg : KeepsControl g) (d : RegNo) (src : Word) (s : State) :
    Ends s (aluCore f g d src s) := by
  unfold aluCore
  split
  · exact .refused _
  · split
    · exact .refused _
    · exact writeBack_ends f d _ (.refl s) (hg ..) pcPlus2_even

theorem aluReg_ends (f : AluForm) {g : Calc} (hg : KeepsControl g) (d r : RegNo) (s : State) :
    Ends s (aluReg f g d r s) :=
  aluCore_ends f hg d _ s

theorem aluMem_ends (f : AluForm) {g : Calc} (hg : KeepsControl g) (word : Half) (d : RegNo) (md : Bool) (r : RegNo)
    (s : State) : Ends s (aluMem f g word d md r s) := by
  unfold aluMem
  split
  · exact .refused _
  · exact (loadOperand_runs ..).finish fun _ t ht => writeBack_ends f _ _ ht (hg ..) (endAddress_size_even md r _)

theorem mulReg_ends (product : Word → Word → BitVec 64) {flags : BitVec 64 → Flags → Flags}
    (hf : ∀ p f, SameControl f (flags p f)) (d r : RegNo) (s : State) : Ends s (mulReg product flags d r s) := by
  unfold mulReg
  split
  · exact .refused _
  · split
    · exact .refused _
    · refine ends_none ?_ pcPlus2_even
      have hwritten := (During.writeReg d (productLow (product (readReg r s) (readReg d s))) s).trans
        (.setMof (productHigh (product (readReg r s) (readReg d s))) _)
      exact hwritten.setFlags fun _ => hf ..

theorem moveToSregReg_ends (p : SReg) (r : RegNo) (s : State) : Ends s (moveToSregReg p r s) := by
  unfold moveToSregReg
  split
  · exact .refused _
  · split
    · exact .refused _
    · exact ends_none (writeSreg_kept ..) pcPlus2_even

theorem moveToSregMem_ends (word : Half) (p : SReg) (md : Bool) (r : RegNo) (s : State) :
    Ends s (moveToSregMem word p md r s) := by
  unfold moveToSregMem
  split
  · exact .refused _
  · exact (loadOperand_runs ..).finish fun _ t ht =>
      ends_none (.trans ht (writeSreg_kept ..)) (endAddress_size_even md r _)

theorem moveFromSregReg_ends (p : SReg) (d : RegNo) (s : State) : Ends s (moveFromSregReg p d s) := by
  unfold moveFromSregReg
  split
  · exact .refused _
  · split
    · exact .refused _
    · split
      · split
        · exact ends_none (During.refl s).toKept pcPlus2_even
        · exact ends_delayed (During.refl s).toKept pcPlus2_even
      · exact ends_none (During.writeReg ..).toKept pcPlus2_even

theorem moveFromSregMem_ends (word : Half) (p : SReg) (md : Bool) (d : RegNo) (s : State) :
    Ends s (moveFromSregMem word p md d s) := by
  unfold moveFromSregMem
  split
  · exact .refused _
  · exact (storeOperand_runs ..).finish fun _ t ht => ends_none ht.toKept (endAddress_size_even md d _)

theorem storeReg_ends (m : Size) (word : Half) (r : RegNo) (md : Bool) (d : RegNo) (s : State) :
    Ends s (storeReg m word r md d s) :=
  (storeOperand_runs ..).finish fun _ _ ht => ends_none ht.toKept (endAddress_size_even md d m)

theorem movemLoadOp_ends (word : Half) (d : RegNo) (md : Bool) (r : RegNo) (s : State) :
    Ends s (movemLoadOp word d md r s) := by
  have hseq : AddressesEven s → (endAddress md r (4 * (d.toNat + 1)) s).getLsbD 0 = false :=
    endAddress_even md r (by omega)
  unfold movemLoadOp
  split
  · exact .refused _
  · dsimp only
    split
    · exact (readOperand_runs ..).finish fun _ t ht => ((loadRegs_runs ..).after ht).finish fun _ u hu =>
        ends_jump (hu.trans (.updateAddress ..)).toKept hseq
    · exact (loadRegs_runs ..).finish fun _ t ht => ends_none (ht.trans (.updateAddress ..)).toKept hseq

theorem movemStoreOp_ends (word : Half) (r : RegNo) (md : Bool) (d : RegNo) (s : State) :
    Ends s (movemStoreOp word r md d s) := by
  unfold movemStoreOp
  split
  · exact .refused _
  · exact (unlessSuppressed_runs (storeRegs_runs ..)).finish fun _ t ht =>
      ends_none (ht.trans (.updateAddress ..)).toKept (endAddress_even md d (by omega))

theorem branch_ends (c : Cond) (disp : Word) {seq : Word} {s t : State} (h : During s t)
    (hseq : AddressesEven s → seq.getLsbD 0 = false) : Ends s (branch c disp seq t) := by
  unfold branch
  split
  · exact ends_delayed h.toKept hseq
  · exact ends_none h.toKept hseq

theorem branchShort_ends (c : Cond) (o : BitVec 8) (s : State) : Ends s (branchShort c o s) := by
  unfold branchShort
  split
  · exact .refused _
  · exact branch_ends c _ (.refl s) pcPlus2_even

theorem branchLong_ends (word : Half) (c : Cond) (s : State) : Ends s (branchLong word c s) := by
  unfold branchLong
  split
  · exact .refused _
  · exact (loadOperand_runs ..).finish fun _ t ht => branch_ends c _ ht (endAddress_even true 15#4 (by omega))

theorem jumpReg_ends (k : JumpKind) (r : RegNo) (s : State) : Ends s (jumpReg k r s) := by
  unfold jumpReg
  split
  · exact .refused _
  · exact ends_jump (saveLink_kept ..) pcPlus2_even

theorem jumpMem_ends (k : JumpKind) (word : Half) (md : Bool) (r : RegNo) (s : State) :
    Ends s (jumpMem k word md r s) := by
  unfold jumpMem
  split
  · exact .refused _
  · exact (loadOperand_runs ..).finish fun _ t ht =>
      ends_jump (.trans ht (saveLink_kept ..)) (endAddress_even md r (by omega))

theorem execBreakN_ends (n : BitVec 4) (s : State) : Ends s (execBreakN n s) := by
  unfold execBreakN
  split
  · exact .refused _
  · exact ends_jump ⟨⟨rfl, rfl, rfl, rfl, rfl, id⟩, fun _ => ⟨rfl, rfl, rfl, rfl, rfl⟩⟩ pcPlus2_even

theorem indexPrefix_ends (shift : Nat) (k b : RegNo) (s : State) : Ends s (indexPrefix shift k b s) := by
  unfold indexPrefix
  split
  · exact .refused _
  · exact .handsOver _ (.refl s) pcPlus2_even

theorem bytePrefix_ends (b : RegNo) (o : BitVec 8) (s : State) : Ends s (bytePrefix b o s) := by
  unfold bytePrefix
  split
  · exact .refused _
  · split
    · exact .refused _
    · exact .handsOver _ (.refl s) pcPlus2_even

theorem offsetPrefix_ends (m : Size) (word : Half) (b : RegNo) (md : Bool) (r : RegNo) (s : State) :
    Ends s (offsetPrefix m word b md r s) := by
  unfold offsetPrefix
  split
  · exact .refused _
  · exact (prefixOperand_runs ..).finish fun _ t ht => .handsOver _ ht (endAddress_size_even md r m)

theorem pointerPrefix_ends (word : Half) (md : Bool) (r : RegNo) (s : State) : Ends s (pointerPrefix word md r s) := by
  unfold pointerPrefix
  split
  · exact .refused _
  · exact (prefixOperand_runs ..).finish fun _ t ht => .handsOver _ ht (endAddress_even md r (by omega))

theorem saveStatus_ends (word : Half) (md : Bool) (d : RegNo) (s : State) : Ends s (saveStatus word md d s) := by
  unfold saveStatus
  split
  · exact .refused _
  · exact (storeRecord_runs ..).finish fun _ t ht =>
      ends_none (ht.trans (.updateAddress ..)).toKept (endAddress_even md d (by omega))

theorem execRbf_ends (md : Bool) (r : RegNo) (s : State) : Ends s (execRbf md r s) := by
  unfold execRbf
  split
  · exact .refused _
  · split
    · exact .refused _
    · exact (loadRecord_runs ..).finish fun rec t ht =>
        .restarts (decodeWord rec.instr) rec (restoreMode_kept rec (ht.trans (.updateAddress ..)))

theorem flagOp_ends {g : Flags → Flags} {s : State} (hg : s.mode = .user → SameControl s.flags (g s.flags)) :
    Ends s (flagOp g s) := by
  unfold flagOp
  split
  · exact .refused _
  · exact ends_none ((During.refl s).setFlags hg) pcPlus2_even

theorem execNop_ends (s : State) : Ends s (execNop s) := by
  unfold execNop
  split
  · exact .refused _
  · exact ends_none (During.refl s).toKept pcPlus2_even

/-! ## Every word -/

theorem mulsFlags_sameControl (p : BitVec 64) (f : Flags) : SameControl f (mulsFlags p f) := ⟨rfl, rfl, rfl⟩
theorem muluFlags_sameControl (p : BitVec 64) (f : Flags) : SameControl f (muluFlags p f) := ⟨rfl, rfl, rfl⟩

/-- Every word ends in one of the ways of `Ends`. -/
theorem exec_ends (i : Instr) (s : State) : Ends s (exec i s) := by
  cases i with
  | reserved _ | unlisted _ | tableNote => exact .refused _
  | nop => exact execNop_ends s
  | setf k => exact flagOp_ends fun hu => setFlagList_user hu k _
  | ax => exact flagOp_ends fun hu => setFlagList_user hu 0x10#8 _
  | ei => exact flagOp_ends fun hu => setFlagList_user hu 0x20#8 _
  | clearf k => exact flagOp_ends fun hu => clearFlagList_user hu k _
  | di => exact flagOp_ends fun hu => clearFlagList_user hu 0x20#8 _
  | bcc c o => exact branchShort_ends c o s
  | bcc16 c => exact branchLong_ends _ c s
  | breakN n => exact execBreakN_ends n s
  | jumpReg r | jircReg r | jsrcReg r | jbrcReg r | jirReg r | jsrReg r => exact jumpReg_ends _ r s
  | jump md r | jirc md r | jsrc md r | jbrc md r | jmpu md r | jir md r | jsr md r => exact jumpMem_ends _ _ md r s
  | rbf md r => exact execRbf_ends md r s
  | sbfs md d => exact saveStatus_ends _ md d s
  | bdapByte b o => exact bytePrefix_ends b o s
  | biapB k b | biapW k b | biapD k b => exact indexPrefix_ends _ k b s
  | bdapB b md r | bdapW b md r | bdapD b md r => exact offsetPrefix_ends _ _ b md r s
  | dip md r => exact pointerPrefix_ends _ md r s
  | movemLoad d md r => exact movemLoadOp_ends _ d md r s
  | movemStore r md d => exact movemStoreOp_ends _ r md d s
  | moveBStore r md d | moveWStore r md d | moveDStore r md d => exact storeReg_ends _ _ r md d s
  | pushReg r => exact storeReg_ends .dword _ r true 14#4 s
  | moveToSpecial p r => exact moveToSregReg_ends p r s
  | moveToSpecialMem p md r => exact moveToSregMem_ends _ p md r s
  | popSpecial p => exact moveToSregMem_ends _ p true 14#4 s
  | moveFromSpecial p d => exact moveFromSregReg_ends p d s
  | clearBReg d => exact moveFromSregReg_ends .p0 d s
  | clearWReg d => exact moveFromSregReg_ends .p4 d s
  | clearDReg d => exact moveFromSregReg_ends .p8 d s
  | ret => exact moveFromSregReg_ends .srp 15#4 s
  | retb => exact moveFromSregReg_ends .brp 15#4 s
  | reti => exact moveFromSregReg_ends .irp 15#4 s
  | moveFromSpecialMem p md d => exact moveFromSregMem_ends _ p md d s
  | clearBMem md d => exact moveFromSregMem_ends _ .p0 md d s
  | clearWMem md d => exact moveFromSregMem_ends _ .p4 md d s
  | clearDMem md d => exact moveFromSregMem_ends _ .p8 md d s
  | pushSpecial p => exact moveFromSregMem_ends _ p true 14#4 s
  | mulsB d r | mulsW d r | mulsD d r => exact mulReg_ends _ mulsFlags_sameControl d r s
  | muluB d r | muluW d r | muluD d r => exact mulReg_ends _ muluFlags_sameControl d r s
  | addq d _ => exact aluCore_ends _ (calcAdd_keepsControl _) d _ s
  | subq d _ => exact aluCore_ends _ (calcSub_keepsControl _) d _ s
  | cmpq d k => exact aluCore_ends (formCompare .dword) (calcSub_keepsControl .dword) d (k.signExtend 32) s
  | andq d _ => exact aluCore_ends _ (calcAnd_keepsControl _) d _ s
  | orq d _ => exact aluCore_ends _ (calcOr_keepsControl _) d _ s
  | moveq d _ => exact aluCore_ends _ (calcMove_keepsControl _) d _ s
  | btstq d c => exact aluCore_ends (formCompare .dword) calcBtst_keepsControl d (c.setWidth 32) s
  | asrq d _ => exact aluCore_ends _ (calcAsr_keepsControl _) d _ s
  | lslq d _ => exact aluCore_ends _ (calcLsl_keepsControl _) d _ s
  | lsrq d _ => exact aluCore_ends _ (calcLsr_keepsControl _) d _ s
  | scc c d => exact aluCore_ends _ (calcScc_keepsControl c) d _ s
  | swap _ d | notReg d => exact aluCore_ends _ calcSwap_keepsControl d _ s
  | addBReg d r | addWReg d r | addDReg d r | adduBReg d r | adduWReg d r | addsBReg d r | addsWReg d r =>
    exact aluReg_ends _ (calcAdd_keepsControl _) d r s
  | subBReg d r | subWReg d r | subDReg d r | subuBReg d r | subuWReg d r | subsBReg d r | subsWReg d r =>
    exact aluReg_ends _ (calcSub_keepsControl _) d r s
  | cmpBReg d r => exact aluReg_ends (formCompare .byte) (calcSub_keepsControl .byte) d r s
  | cmpWReg d r => exact aluReg_ends (formCompare .word) (calcSub_keepsControl .word) d r s
  | cmpDReg d r => exact aluReg_ends (formCompare .dword) (calcSub_keepsControl .dword) d r s
  | negBReg d r | negWReg d r | negDReg d r => exact aluReg_ends _ (calcNeg_keepsControl _) d r s
  | andBReg d r | andWReg d r | andDReg d r => exact aluReg_ends _ (calcAnd_keepsControl _) d r s
  | orBReg d r | orWReg d r | orDReg d r => exact aluReg_ends _ (calcOr_keepsControl _) d r s
  | xor d r => exact aluReg_ends _ calcXor_keepsControl d r s
  | boundBReg d r | boundWReg d r | boundDReg d r => exact aluReg_ends _ calcBound_keepsControl d r s
  | abs d r => exact aluReg_ends _ calcAbs_keepsControl d r s
  | addiB k d | addiW k d | addiD k d => exact aluReg_ends _ (calcAddi_keepsControl _) d k s
  | dstep d r => exact aluReg_ends _ calcDstep_keepsControl d r s
  | mstep d r => exact aluReg_ends _ calcMstep_keepsControl d r s
  | asrBReg d r | asrWReg d r | asrDReg d r => exact aluReg_ends _ (calcAsr_keepsControl _) d r s
  | lslBReg d r | lslWReg d r | lslDReg d r => exact aluReg_ends _ (calcLsl_keepsControl _) d r s
  | lsrBReg d r | lsrWReg d r | lsrDReg d r => exact aluReg_ends _ (calcLsr_keepsControl _) d r s
  | btst d r => exact aluReg_ends (formCompare .dword) calcBtst_keepsControl d r s
  | lz d r => exact aluReg_ends _ calcLz_keepsControl d r s
  | movuBReg d r | movuWReg d r => exact aluReg_ends _ calcMovu_keepsControl d r s
  | moveBReg d r | moveWReg d r | moveDReg d r | movsBReg d r | movsWReg d r =>
    exact aluReg_ends _ (calcMove_keepsControl _) d r s
  | testBReg r => exact aluReg_ends (formTest .byte) (calcMove_keepsControl .byte) r r s
  | testWReg r => exact aluReg_ends (formTest .word) (calcMove_keepsControl .word) r r s
  | testDReg r => exact aluReg_ends (formTest .dword) (calcMove_keepsControl .dword) r r s
  | addBMem d md r | addWMem d md r | addDMem d md r | adduBMem d md r | adduWMem d md r | addsBMem d md r
  | addsWMem d md r => exact aluMem_ends _ (calcAdd_keepsControl _) _ d md r s
  | subBMem d md r | subWMem d md r | subDMem d md r | subuBMem d md r | subuWMem d md r | subsBMem d md r
  | subsWMem d md r | cmpBMem d md r | cmpWMem d md r | cmpDMem d md r | cmpuBMem d md r | cmpuWMem d md r
  | cmpsBMem d md r | cmpsWMem d md r => exact aluMem_ends _ (calcSub_keepsControl _) _ d md r s
  | andBMem d md r | andWMem d md r | andDMem d md r => exact aluMem_ends _ (calcAnd_keepsControl _) _ d md r s
  | orBMem d md r | orWMem d md r | orDMem d md r => exact aluMem_ends _ (calcOr_keepsControl _) _ d md r s
  | boundBMem d md r | boundWMem d md r | boundDMem d md r => exact aluMem_ends _ calcBound_keepsControl _ d md r s
  | movuBMem d md r | movuWMem d md r => exact aluMem_ends _ calcMovu_keepsControl _ d md r s
  | moveBMem d md r | moveWMem d md r | moveDMem d md r | movsBMem d md r | movsWMem d md r =>
    exact aluMem_ends _ (calcMove_keepsControl _) _ d md r s
  | testBMem md r => exact aluMem_ends (formTest .byte) (calcMove_keepsControl .byte) _ 0#4 md r s
  | testWMem md r => exact aluMem_ends (formTest .word) (calcMove_keepsControl .word) _ 0#4 md r s
  | testDMem md r => exact aluMem_ends (formTest .dword) (calcMove_keepsControl .dword) _ 0#4 md r s
  | popReg d => exact aluMem_ends _ (calcMove_keepsControl _) _ d true 14#4 s

theorem fetchAndExec_ends (s : State) : Ends s (fetchAndExec s) :=
  (fetchInstr_runs s).finish fun w t ht => (exec_ends (decodeWord w) t).after ht

/-! ## Taking an exception -/

/-- What taking an exception keeps up to the start of its handler; `nmi` says that it is an NMI, which clears M
(60_exceptions.md R455, R459, R462, R465, R466). -/
structure Taken (nmi : Bool) (s t : State) : Prop where
  /-- The handler runs in supervisor mode. -/
  mode : t.mode = .supervisor
  /-- `SR_OFF_*`. -/
  layout : t.layout = s.layout
  /-- Memory stays in its canonical form. -/
  memory : memWf s.mem = true → memWf t.mem = true
  /-- The reserved bits of the execution state field stay 0. -/
  reservedBits : s.hidden.state.extractLsb' 9 7 = 0#7 → t.hidden.state.extractLsb' 9 7 = 0#7
  /-- IBR. -/
  ibr : t.sregs.ibr = s.sregs.ibr
  /-- BAR. -/
  bar : t.sregs.bar = s.sregs.bar
  /-- Interrupt enable. -/
  i : t.flags.i = s.flags.i
  /-- Breakpoint enable. -/
  b : t.flags.b = s.flags.b
  /-- NMI enable. -/
  m : t.flags.m = (s.flags.m && !nmi)

/-- Is the event an NMI. -/
def isNmi : Event → Bool
  | .nmi => true
  | _ => false

/-- Nine bits below seven zeros leave the upper seven bits 0. -/
theorem append_nine_reserved : ∀ a b c d e f g h i : Bool,
    (0#7 ++ BitVec.ofBool a ++ BitVec.ofBool b ++ BitVec.ofBool c ++ BitVec.ofBool d ++ BitVec.ofBool e ++
      BitVec.ofBool f ++ BitVec.ofBool g ++ BitVec.ofBool h ++ BitVec.ofBool i : Half).extractLsb' 9 7 = 0#7 := by
  decide

/-- The reserved bits of a new record are 0 (60_exceptions.md R483). -/
theorem recordState_reserved (b : BusFault) (s : State) : (recordState b s).extractLsb' 9 7 = 0#7 :=
  append_nine_reserved ..

theorem acknowledge_taken (e : Event) (s : State) : Taken (isNmi e) s (acknowledge e s) := by
  cases e with
  | interrupt v | hwBreak | nmi => exact ⟨rfl, rfl, id, id, rfl, rfl, rfl, rfl, by simp [acknowledge, isNmi]⟩
  | busFault b => exact ⟨rfl, rfl, id, fun _ => recordState_reserved b s, rfl, rfl, rfl, rfl, by simp [acknowledge, isNmi]⟩

theorem Taken.during {nmi : Bool} {s t u : State} (h : Taken nmi s t) (h' : During t u) : Taken nmi s u where
  mode := h'.mode.trans h.mode
  layout := h'.layout.trans h.layout
  memory hm := h'.memory (h.memory hm)
  reservedBits hr := h'.hidden ▸ h.reservedBits hr
  ibr := h'.guarded.ibr.trans h.ibr
  bar := h'.guarded.bar.trans h.bar
  i := h'.guarded.i.trans h.i
  b := h'.guarded.b.trans h.b
  m := h'.guarded.m.trans h.m

theorem During.thenTaken {nmi : Bool} {s t u : State} (h : During s t) (h' : Taken nmi t u) : Taken nmi s u where
  mode := h'.mode
  layout := h'.layout.trans h.layout
  memory hm := h'.memory (h.memory hm)
  reservedBits hr := h'.reservedBits (h.hidden ▸ hr)
  ibr := h'.ibr.trans h.guarded.ibr
  bar := h'.bar.trans h.guarded.bar
  i := h'.i.trans h.guarded.i
  b := h'.b.trans h.guarded.b
  m := by rw [h'.m, h.guarded.m]

/-- A bus fault in the vector read takes an exception of its own. -/
theorem Taken.again {nmi : Bool} {s t u : State} (h : Taken nmi s t) (h' : Taken false t u) : Taken nmi s u where
  mode := h'.mode
  layout := h'.layout.trans h.layout
  memory hm := h'.memory (h.memory hm)
  reservedBits hr := h'.reservedBits (h.reservedBits hr)
  ibr := h'.ibr.trans h.ibr
  bar := h'.bar.trans h.bar
  i := h'.i.trans h.i
  b := h'.b.trans h.b
  m := by rw [h'.m, h.m, Bool.not_false, Bool.and_true]

theorem enterHandler_next {target : Word} {s t : State} (h : enterHandler target s = .next t) :
    target.getLsbD 0 = false ∧ t = handlerAt target s := by
  unfold enterHandler at h
  split at h
  · cases h
  · next he => exact ⟨by simpa using he, (Host.Outcome.next.inj h).symm⟩

/-- An exception that is taken starts a handler at an even address. -/
theorem takeEvent_next {t : State} (n : Nat) : ∀ {e : Event} {s : State}, takeEvent n e s = .next t →
    ∃ target s', Taken (isNmi e) s s' ∧ target.getLsbD 0 = false ∧ t = handlerAt target s' := by
  induction n with
  | zero => exact nofun
  | succ n ih =>
    intro e s h
    have hc := busCycle_keeps none (vectorAddress (eventVector e) (acknowledge e s)) 4 (acknowledge e s)
    unfold takeEvent at h
    dsimp only at h
    split at h
    · next hb =>
      rw [hb] at hc
      obtain ⟨heven, rfl⟩ := enterHandler_next h
      exact ⟨_, _, (acknowledge_taken e s).during hc, heven, rfl⟩
    · next hb =>
      rw [hb] at hc
      obtain ⟨target, s', hs', heven, ht⟩ := ih h
      exact ⟨target, s', ((acknowledge_taken e s).during hc).again hs', heven, ht⟩
    · cases h

theorem takeException_next {e : Event} {s t : State} (h : takeException e s = .next t) :
    ∃ target s', Taken (isNmi e) s s' ∧ target.getLsbD 0 = false ∧ t = handlerAt target s' :=
  takeEvent_next _ h

/-! ## Every step -/

theorem During.popIrq (s : State) : During s (popIrq s).2 := by
  unfold Machine.popIrq
  split
  · exact .refl s
  · exact .of_same .of_same id

/-- Every step is a word that ends, or takes an event that is due. -/
theorem step_ends_or_event (s : State) :
    Ends s (step s) ∨
      ∃ e, pendingEvent (popIrq s).1 (popIrq s).2 = some e ∧ step s = takeException e (popIrq s).2 := by
  unfold step
  split
  · left
    unfold runRestart
    split
    · exact exec_ends _ s
    · exact fetchAndExec_ends s
  · unfold checkAndRun
    split
    · next e he => exact .inr ⟨e, he, rfl⟩
    · exact .inl ((fetchAndExec_ends _).after (.popIrq s))

/-! ## What the end of a word leaves -/

/-- The cells that a word hands to the next one are right. -/
structure CellsOk (t : State) : Prop where
  /-- PC is even. -/
  pcEven : t.pc.getLsbD 0 = false
  /-- So is the successor address of a restart that is set up. -/
  resumeEven : ∀ r, t.resume = some r → r.next.getLsbD 0 = false
  /-- While an address, a delay slot or a restart is pending, events are inhibited. -/
  windowHeld : (t.prefixAddr.isSome || t.delay.isSome || t.resume.isSome) = true → t.inhibit = true

/-- With nothing pending PC alone counts. -/
theorem CellsOk.of_nothing_pending {t : State} (pcEven : t.pc.getLsbD 0 = false) (hp : t.prefixAddr = none)
    (hd : t.delay = none) (hr : t.resume = none) : CellsOk t :=
  ⟨pcEven, fun r h => by simp [hr] at h, fun h => by simp [hp, hd, hr] at h⟩

/-- What the end of a word does not touch. -/
structure EndKeeps (s t : State) : Prop where
  /-- Memory. -/
  mem : t.mem = s.mem
  /-- The hidden CPU status registers. -/
  hidden : t.hidden = s.hidden
  /-- `SR_OFF_*`. -/
  layout : t.layout = s.layout
  /-- IBR, BAR, I, B and M. -/
  guarded : Guarded s t

theorem jumpTo_next {target : Word} {s t : State} (h : jumpTo target s = .next t) :
    target.getLsbD 0 = false ∧ t = { s with pc := target, prefetch := none, stores := { s.stores with fresh := [] } } := by
  unfold jumpTo at h
  split at h
  · cases h
  · next he => exact ⟨by simpa using he, (Host.Outcome.next.inj h).symm⟩

/-- A state that differs from `s` in none of the fields that the end of a word keeps. -/
theorem endKeeps_rfl {s t : State} (mem : t.mem = s.mem := by rfl) (hidden : t.hidden = s.hidden := by rfl)
    (layout : t.layout = s.layout := by rfl) (ibr : t.sregs.ibr = s.sregs.ibr := by rfl)
    (bar : t.sregs.bar = s.sregs.bar := by rfl) (i : t.flags.i = s.flags.i := by rfl)
    (b : t.flags.b = s.flags.b := by rfl) (m : t.flags.m = s.flags.m := by rfl) : EndKeeps s t :=
  ⟨mem, hidden, layout, ibr, bar, i, b, m⟩

/-- A word that is completed hands on an even PC; a transfer that it starts holds events back. -/
theorem complete_next {e : Ending} {s t : State} (hwin : Ending.HoldsWindow e) (h : complete e s = .next t) :
    EndKeeps s t ∧ (e.seq.getLsbD 0 = false → CellsOk t) := by
  unfold complete at h
  split at h
  · split at h
    · obtain ⟨heven, rfl⟩ := jumpTo_next h
      exact ⟨endKeeps_rfl, fun _ => .of_nothing_pending heven rfl rfl rfl⟩
    · cases h
  · next hd =>
    split at h
    · obtain rfl := Host.Outcome.next.inj h
      exact ⟨endKeeps_rfl, fun hseq => .of_nothing_pending hseq rfl hd rfl⟩
    · obtain ⟨heven, rfl⟩ := jumpTo_next h
      exact ⟨endKeeps_rfl, fun _ => .of_nothing_pending heven rfl hd rfl⟩
    · next htr =>
      obtain rfl := Host.Outcome.next.inj h
      exact ⟨endKeeps_rfl, fun hseq => ⟨hseq, nofun, fun _ => hwin _ _ htr⟩⟩

theorem completePrefix_next {seq addr : Word} {s t : State} (h : completePrefix seq addr s = .next t) :
    EndKeeps s t ∧ (seq.getLsbD 0 = false → CellsOk t) := by
  obtain rfl := Host.Outcome.next.inj h
  exact ⟨endKeeps_rfl, fun hseq => ⟨hseq, nofun, fun _ => rfl⟩⟩

/-- A memory form takes a byte or whole words. -/
theorem memoryForm_bytes {i : Instr} {m : MemoryForm} (h : memoryForm i = some m) : m.bytes = 1 ∨ m.bytes % 2 = 0 := by
  cases i with
  | moveToSpecialMem p _ _ | moveFromSpecialMem p _ _ | popSpecial p | pushSpecial p =>
    obtain ⟨z, -, rfl⟩ := Option.map_eq_some_iff.1 h
    exact sizeBytes_one_or_even z
  | movemLoad _ _ _ | movemStore _ _ _ =>
    cases h
    simp
    omega
  | _ => cases h <;> simp

/-- A restart that is set up at an even address, its successor even too. -/
theorem setRestart_ok {r : StatusRecord} {pc : Word} {re : Restart} {p : Option Word} {s : State}
    (hpc : pc.getLsbD 0 = false) (hnext : re.next.getLsbD 0 = false) :
    EndKeeps s (setRestart r pc re p s) ∧ CellsOk (setRestart r pc re p s) := by
  refine ⟨endKeeps_rfl, hpc, fun r' h => ?_, fun _ => rfl⟩
  obtain rfl := Option.some.inj h
  exact hnext

/-- The word restarted stands before its successor. -/
theorem setRestart_before {r : StatusRecord} {next : Word} {c : Option RestartCycle} {p : Option Word} {s : State}
    (hnext : next.getLsbD 0 = false) : EndKeeps s (setRestart r (next - 2#32) { next := next, cycle := c } p s) ∧
      CellsOk (setRestart r (next - 2#32) { next := next, cycle := c } p s) :=
  setRestart_ok (even_sub (n := 2) hnext rfl) hnext

theorem restartFetch_next {r : StatusRecord} {s t : State} (h : restartFetch r s = .next t) :
    EndKeeps s t ∧ CellsOk t := by
  unfold restartFetch at h
  dsimp only at h
  split at h
  · cases h
  split at h
  · cases h
  split at h
  · cases h
  next haddr hpc =>
    obtain rfl := Host.Outcome.next.inj h
    have haddr : r.addr.getLsbD 0 = false := by simpa using haddr
    refine setRestart_ok haddr ?_
    dsimp only
    split
    · exact even_add_two haddr
    · simpa using hpc

theorem restartData_next {m : MemoryForm} {r : StatusRecord} {s t : State} (hm : m.bytes = 1 ∨ m.bytes % 2 = 0)
    (h : restartData m r s = .next t) : EndKeeps s t ∧ CellsOk t := by
  unfold restartData at h
  dsimp only at h
  split at h
  · cases h
  split at h
  · cases h
  next hpc =>
    obtain rfl := Host.Outcome.next.inj h
    have hpc : r.pc.getLsbD 0 = false := by simpa using hpc
    refine setRestart_before ?_
    split
    · exact hpc
    · split
      · exact even_sub hpc (inlineStep_even hm)
      · exact even_sub hpc rfl

theorem restart_next {i : Instr} {r : StatusRecord} {s t : State} (h : restart (memoryForm i) r s = .next t) :
    EndKeeps s t ∧ CellsOk t := by
  unfold restart at h
  split at h
  · cases h
  split at h
  · split at h
    · cases h
    · next hm => exact restartData_next (memoryForm_bytes hm) h
  · exact restartFetch_next h

/-- What a word that goes on leaves: the cells for the next word, or the start of a bus-fault handler. -/
theorem ends_next {s t : State} (h : Ends s (.next t)) :
    (∃ s', Kept s s' ∧ EndKeeps s' t ∧ (AddressesEven s → CellsOk t)) ∨
      ∃ target s', Taken false s s' ∧ target.getLsbD 0 = false ∧ t = handlerAt target s' := by
  generalize ho : Host.Outcome.next t = o at h
  cases h with
  | fault r => cases ho
  | refused r => cases ho
  | complete kept seqEven window =>
    obtain ⟨hkeep, hcells⟩ := complete_next window ho.symm
    exact .inl ⟨_, kept, hkeep, fun he => hcells (seqEven he)⟩
  | handsOver addr during seqEven =>
    obtain ⟨hkeep, hcells⟩ := completePrefix_next ho.symm
    exact .inl ⟨_, during.toKept, hkeep, fun he => hcells (seqEven he)⟩
  | restarts i r kept =>
    obtain ⟨hkeep, hcells⟩ := restart_next ho.symm
    exact .inl ⟨_, kept, hkeep, fun _ => hcells⟩
  | busFault b during =>
    obtain ⟨target, s', htaken, heven, rfl⟩ := takeException_next ho.symm
    exact .inr ⟨target, s', during.thenTaken htaken, heven, rfl⟩

/-- What a step that goes on leaves: the cells for the next word, or the start of a handler. Only an NMI that is due
clears M. -/
theorem step_next {s t : State} (h : step s = .next t) :
    (∃ s', Kept s s' ∧ EndKeeps s' t ∧ (AddressesEven s → CellsOk t)) ∨
      ∃ nmi target s', (nmi = true → pendingEvent (popIrq s).1 (popIrq s).2 = some .nmi) ∧ Taken nmi s s' ∧
        target.getLsbD 0 = false ∧ t = handlerAt target s' := by
  rcases step_ends_or_event s with hends | ⟨e, he, htake⟩
  · rw [h] at hends
    rcases ends_next hends with hword | ⟨target, s', htaken, heven, rfl⟩
    · exact .inl hword
    · exact .inr ⟨false, target, s', nofun, htaken, heven, rfl⟩
  · rw [h] at htake
    obtain ⟨target, s', htaken, heven, rfl⟩ := takeException_next htake.symm
    refine .inr ⟨isNmi e, target, s', fun hn => ?_, (During.popIrq s).thenTaken htaken, heven, rfl⟩
    cases e with
    | nmi => exact he
    | interrupt _ | hwBreak | busFault _ => cases hn

/-! ## The two claims about every step -/

/-- Settles O6: a word hands on cells that are right, and an exception leaves nothing pending at an even address. -/
theorem stepKeepsStateOk : Obligations.StepKeepsStateOk := by
  unfold Obligations.StepKeepsStateOk
  intro s t hs h
  rcases step_next h with ⟨s', hkept, hend, hcells⟩ | ⟨nmi, target, s', -, htaken, heven, rfl⟩
  · have hc := hcells ⟨hs.pcEven, hs.resumeEven⟩
    exact {
      memory := hend.mem ▸ hkept.memory hs.memory
      pcEven := hc.pcEven
      resumeEven := hc.resumeEven
      windowHeld := hc.windowHeld
      reservedBits := hend.hidden ▸ hkept.hidden ▸ hs.reservedBits
      layout := hend.layout ▸ hkept.layout ▸ hs.layout }
  · exact {
      memory := htaken.memory hs.memory
      pcEven := heven
      resumeEven := nofun
      windowHeld := nofun
      reservedBits := htaken.reservedBits hs.reservedBits
      layout := htaken.layout ▸ hs.layout }

/-- An NMI is taken outside the inhibit window, requested and enabled (60_exceptions.md R453). -/
theorem pendingEvent_nmi {a : IrqAnswer} {s : State} (h : pendingEvent a s = some .nmi) :
    s.inhibit = false ∧ a.nmi = true ∧ s.flags.m = true := by
  unfold pendingEvent at h
  split at h
  · cases h
  split at h
  · cases h
  split at h
  · next hi _ hn => simp_all
  · split at h
    · split at h <;> cases h
    · cases h

@[simp] theorem popIrq_inhibit (s : State) : (popIrq s).2.inhibit = s.inhibit := by
  unfold popIrq
  split <;> rfl

@[simp] theorem popIrq_flags (s : State) : (popIrq s).2.flags = s.flags := by
  unfold popIrq
  split <;> rfl

/-- Settles O9: the words keep what is protected in user mode, and of the exceptions only an NMI touches it: it clears M. -/
theorem userModeProtection : Obligations.UserModeProtection := by
  unfold Obligations.UserModeProtection
  intro s t hu h
  rcases step_next h with ⟨s', hkept, hend, -⟩ | ⟨nmi, target, s', hnmi, htaken, -, rfl⟩
  · have hg := (hkept.guarded hu).trans hend.guarded
    exact ⟨hg.ibr, hg.bar, hg.i, hg.b, .inl hg.m⟩
  · refine ⟨htaken.ibr, htaken.bar, htaken.i, htaken.b, ?_⟩
    have hm : (handlerAt target s').flags.m = (s.flags.m && !nmi) := htaken.m
    cases nmi with
    | false => exact .inl (by simpa using hm)
    | true =>
      obtain ⟨hin, hreq, hset⟩ := pendingEvent_nmi (hnmi rfl)
      exact .inr ⟨by simpa using hm, htaken.mode, by simpa using hset, by simpa using hin, hreq⟩

end Sys2Proof.Proofs
end

section
/-! O14, O22, O28, O29, O30 and O48: the registers, the flags, the comparison with BAR, the TLB registers and the operands
without a meaning. -/

namespace Sys2Proof.Proofs

-- Declarations are checked one after another: many at once need more threads than the memory limit of the check allows.
set_option Elab.async false

open Sys2Proof.Machine Sys2Proof.Laws

/-! ## O30: the conditions -/

/-- Settles O30, by cases on the flags that each condition reads. -/
theorem conditionCodes : Obligations.ConditionCodes := by
  unfold Obligations.ConditionCodes
  rintro ⟨c, v, z, n, x, i, b, m, u, p, f⟩
  refine ⟨?_, ?_, ?_, ?_, ?_, ?_, ?_, ?_, ?_, ?_, ?_, ?_, ?_, ?_, rfl, Iff.rfl⟩ <;> simp [condHolds]

/-! ## O48: the special registers -/

/-- The lowest bit of a pattern with a flag below it. -/
theorem getLsbD_append_ofBool_zero {w : Nat} (x : BitVec w) (b : Bool) : (x ++ BitVec.ofBool b).getLsbD 0 = b := by
  rw [BitVec.getLsbD_append]
  simp

/-- The other bits of a pattern with a flag below it. -/
theorem getLsbD_append_ofBool_succ {w : Nat} (x : BitVec w) (b : Bool) (i : Nat) :
    (x ++ BitVec.ofBool b).getLsbD (i + 1) = x.getLsbD i := by
  simp [BitVec.getLsbD_append]

/-- The bits of eleven flags below five zeros. -/
theorem getLsbD_append_eleven (b₀ b₁ b₂ b₃ b₄ b₅ b₆ b₇ b₈ b₉ b₁₀ : Bool) (i : Nat) :
    BitVec.getLsbD (w := 5 + 1 + 1 + 1 + 1 + 1 + 1 + 1 + 1 + 1 + 1 + 1)
      (0#5 ++ BitVec.ofBool b₁₀ ++ BitVec.ofBool b₉ ++ BitVec.ofBool b₈ ++ BitVec.ofBool b₇ ++ BitVec.ofBool b₆ ++
        BitVec.ofBool b₅ ++ BitVec.ofBool b₄ ++ BitVec.ofBool b₃ ++ BitVec.ofBool b₂ ++ BitVec.ofBool b₁ ++
        BitVec.ofBool b₀) i = match i with
    | 0 => b₀ | 1 => b₁ | 2 => b₂ | 3 => b₃ | 4 => b₄ | 5 => b₅ | 6 => b₆ | 7 => b₇ | 8 => b₈ | 9 => b₉ | 10 => b₁₀
    | _ => false := by
  match i with
  | 0 | 1 | 2 | 3 | 4 | 5 | 6 | 7 | 8 | 9 | 10 =>
    simp only [getLsbD_append_ofBool_succ, getLsbD_append_ofBool_zero]
  | i + 11 =>
    simp only [getLsbD_append_ofBool_succ, BitVec.getLsbD_zero]

/-- CCR and DCCR read as the eleven flags, F highest (10_state.md R36, R37; log 11). -/
theorem getLsbD_ccrOfFlags (f : Flags) (i : Nat) : ((ccrOfFlags f).setWidth 32).getLsbD i = match i with
    | 0 => f.c | 1 => f.v | 2 => f.z | 3 => f.n | 4 => f.x | 5 => f.i
    | 6 => f.b | 7 => f.m | 8 => f.u | 9 => f.p | 10 => f.f | _ => false := by
  have hlow : ((ccrOfFlags f).setWidth 32).getLsbD i = (ccrOfFlags f).getLsbD i := by
    rw [BitVec.getLsbD_setWidth]
    by_cases hi : i < 32
    · simp [hi]
    · simp [hi, BitVec.getLsbD_of_ge (ccrOfFlags f) i (by omega)]
  exact hlow.trans (getLsbD_append_eleven f.c f.v f.z f.n f.x f.i f.b f.m f.u f.p f.f i)

theorem writeSreg_ibr_supervisor {s : State} (hs : s.mode = .supervisor) (v : Word) :
    writeSreg .ibr v s = { s with sregs := { s.sregs with ibr := v.extractLsb' 16 16 } } := by
  simp [writeSreg, hs]

theorem writeSreg_bar_supervisor {s : State} (hs : s.mode = .supervisor) (v : Word) :
    writeSreg .bar v s = { s with sregs := { s.sregs with bar := v } } := by
  simp [writeSreg, hs]

/-- Settles O48. -/
theorem specialRegisterFile : Obligations.SpecialRegisterFile := by
  unfold Obligations.SpecialRegisterFile
  intro s v
  refine ⟨?_, rfl, rfl, rfl, rfl, rfl, rfl, rfl, rfl, rfl, rfl, rfl, rfl, rfl, fun hs => ?_, fun hu => ?_, ?_⟩
  · rintro p (rfl | rfl | rfl) <;> exact ⟨rfl, rfl⟩
  · rw [writeSreg_ibr_supervisor hs, writeSreg_bar_supervisor hs]
    exact ⟨rfl, rfl, rfl⟩
  · exact ⟨writeSreg_ibr_user hu v, writeSreg_bar_user hu v⟩
  · rintro p (rfl | rfl) <;> exact ⟨getLsbD_ccrOfFlags s.flags, rfl⟩

/-! ## O14: the inhibit window and the comparison with BAR -/

/-- In the inhibit window nothing is taken (60_exceptions.md R453; log 21). -/
theorem pendingEvent_inhibited {s : State} (h : s.inhibit = true) (a : IrqAnswer) : pendingEvent a s = none := by
  simp [pendingEvent, h]

/-- The mask of the comparison selects bits 30 to 2, a number of 29 bits above two zeros. -/
theorem toNat_and_barMask (a : Word) : (a &&& 0x7FFFFFFC#32).toNat = a.toNat / 4 % 2 ^ 29 * 4 := by
  rw [BitVec.toNat_and, show (0x7FFFFFFC#32).toNat = (2 ^ 29 - 1) * 2 ^ 2 by decide, show 4 = 2 ^ 2 by decide]
  apply Nat.eq_of_testBit_eq
  intro i
  simp only [Nat.testBit_and, Nat.testBit_mul_two_pow, Nat.testBit_mod_two_pow, Nat.testBit_div_two_pow,
    Nat.testBit_two_pow_sub_one]
  by_cases hi : 2 ≤ i
  · simp [hi, Bool.and_comm]
  · simp [hi]

/-- Bits 31, 1 and 0 do not count (60_exceptions.md R464; log 22). -/
theorem and_barMask_eq_iff (a b : Word) :
    a &&& 0x7FFFFFFC#32 = b &&& 0x7FFFFFFC#32 ↔ a.toNat / 4 % 2 ^ 29 = b.toNat / 4 % 2 ^ 29 := by
  rw [BitVec.toNat_eq, toNat_and_barMask, toNat_and_barMask]
  omega

/-- Settles O14. -/
theorem windowHoldsEvents : Obligations.WindowHoldsEvents := by
  unfold Obligations.WindowHoldsEvents
  refine ⟨fun s a h => pendingEvent_inhibited h a, fun s a => ?_⟩
  have hmatch : (a &&& 0x7FFFFFFC#32 == s.sregs.bar &&& 0x7FFFFFFC#32) =
      decide (a.toNat / 4 % 2 ^ 29 = s.sregs.bar.toNat / 4 % 2 ^ 29) := by
    rw [Bool.eq_iff_iff, beq_iff_eq, decide_eq_true_eq, and_barMask_eq_iff]
  unfold noteBreakpoint
  rw [hmatch]
  split
  · next h => rw [h, Bool.or_true]
  · next h => rw [Bool.eq_false_of_not_eq_true h, Bool.or_false]

/-! ## O22: writes of R_TLB_HI and R_TLB_LO -/

theorem updateSelected_tlb_same (m : Mmu) (g : TlbEntry → TlbEntry) :
    (updateSelected m g).tlb[m.select.toNat] = g (tlbEntry m m.select) := by
  simp [updateSelected]

theorem updateSelected_tlb_other (m : Mmu) (g : TlbEntry → TlbEntry) {i : Nat} (h : i < 64) (hi : i ≠ m.select.toNat) :
    (updateSelected m g).tlb[i] = m.tlb[i] := by
  simp [updateSelected, Vector.getElem_set_ne, hi.symm]

theorem updateSelected_cause (m : Mmu) (g : TlbEntry → TlbEntry) : (updateSelected m g).cause = m.cause := rfl

/-- Two updates of the selected entry are one. -/
theorem updateSelected_updateSelected (m : Mmu) (g g' : TlbEntry → TlbEntry) :
    updateSelected (updateSelected m g) g' = updateSelected m (g' ∘ g) := by
  simp [updateSelected, tlbEntry]

/-- The entry that a write of R_TLB_LO stores: the low part from the datum, the high part from R_MMU_CAUSE
(10_state.md R60, R64). -/
def wholeEntry (m : Mmu) (v : Word) : TlbEntry :=
  { vpn := m.cause.vpn.extractLsb' 4 15, pageId := m.cause.pageId, pfn := v.extractLsb' 0 19
    global := v.getLsbD 22, valid := v.getLsbD 21, kernel := v.getLsbD 20, we := v.getLsbD 19 }

/-- Its five fields and the high part are one update of the selected entry. -/
theorem mmuWrite_tlbLo (m : Mmu) (v : Word) (a : Nat) :
    mmuWrite { addr := a, bytes := 4, fields := [⟨.loPfn, 0⟩, ⟨.loWe, 19⟩, ⟨.loKernel, 20⟩, ⟨.loValid, 21⟩, ⟨.loGlobal, 22⟩] }
      v m = .ok (updateSelected m fun _ => wholeEntry m v) := by
  simp [mmuWrite, isCause, isTlbLo, setField, commitHigh, updateSelected_updateSelected, updateSelected_cause,
    Function.comp_def, wholeEntry, BitVec.setWidth_eq_extractLsb']

/-- Settles O22. -/
theorem tlbWriteProtocol : Obligations.TlbWriteProtocol := by
  unfold Obligations.TlbWriteProtocol
  exact ⟨fun m v a i j => rfl, fun m v a => ⟨_, mmuWrite_tlbLo m v a, rfl, updateSelected_tlb_same m _,
    fun _ h hi => updateSelected_tlb_other m _ h hi⟩⟩

/-! ## Words that stop before they read anything -/

theorem aluMem_refused {f : AluForm} {d : RegNo} {md : Bool} {r : RegNo} {s : State} {x : Refusal}
    (h : memoryRefusal f d md r s = some x) (g : Calc) (word : Half) : aluMem f g word d md r s = .refused x := by
  simp only [aluMem, h]

theorem movemLoadOp_refused {d : RegNo} {md : Bool} {r : RegNo} {s : State} {x : Refusal}
    (h : movemRefusal true d md r s = some x) (word : Half) : movemLoadOp word d md r s = .refused x := by
  simp only [movemLoadOp, h]

theorem movemStoreOp_refused {r : RegNo} {md : Bool} {d : RegNo} {s : State} {x : Refusal}
    (h : movemRefusal false r md d s = some x) (word : Half) : movemStoreOp word r md d s = .refused x := by
  simp only [movemStoreOp, h]

/-! ## O28: operands without a meaning -/

section
variable {p : SReg} (hp : sregSize p = none) {s : State}
include hp

theorem moveToSregReg_undefined (ha : s.prefixAddr = none) (r : RegNo) :
    moveToSregReg p r s = .refused (.undefinedSpecialRegister p) := by
  simp [moveToSregReg, ha, hp]

theorem moveFromSregReg_undefined (ha : s.prefixAddr = none) (d : RegNo) :
    moveFromSregReg p d s = .refused (.undefinedSpecialRegister p) := by
  simp [moveFromSregReg, ha, hp]

theorem moveToSregMem_undefined (word : Half) (md : Bool) (r : RegNo) :
    moveToSregMem word p md r s = .refused (.undefinedSpecialRegister p) := by
  simp only [moveToSregMem, hp]

theorem moveFromSregMem_undefined (word : Half) (md : Bool) (d : RegNo) :
    moveFromSregMem word p md d s = .refused (.undefinedSpecialRegister p) := by
  simp only [moveFromSregMem, hp]

end

/-- U7: after another word's address a move with md = 0 names its destination as Operand1. -/
theorem memoryRefusal_operand1Differs {f : AluForm} {d r : RegNo} {s : State} (hw : f.dest.writes = true)
    (ht : f.threeOp = false) (ha : s.prefixAddr.isSome = true) (hr : r ≠ d) :
    memoryRefusal f d false r s = some .operand1Differs := by
  simp [memoryRefusal, hw, ht, ha, hr]

/-- U6 (d): MOVEM would load the address register that it updates. -/
theorem movemRefusal_addressLoaded {d r : RegNo} (s : State) (h : r.toNat ≤ d.toNat) :
    movemRefusal true d true r s = some .movemAddressLoaded := by
  simp [movemRefusal, h]

/-- U6 (f): a MOVEM with assign is restarted. -/
theorem movemRefusal_assignRestart {load : Bool} {d r : RegNo} {s : State} (hload : load = true → d.toNat < r.toNat)
    (ha : s.prefixAddr.isSome = true) (hre : (restartCycle s).isSome = true) :
    movemRefusal load d true r s = some .movemAssignRestart := by
  simpa [movemRefusal, ha, hre] using hload

/-- Settles O28. -/
theorem undefinedOperandsStop : Obligations.UndefinedOperandsStop := by
  unfold Obligations.UndefinedOperandsStop
  refine ⟨fun s p d r md hp => ?_, fun s d r ha hr => ?_, fun s d r h => ?_, fun s d r ha hre => ⟨fun h => ?_, ?_⟩⟩
  · have hp : sregSize p = none := by rcases hp with rfl | rfl | rfl <;> rfl
    exact ⟨fun ha => ⟨moveToSregReg_undefined hp ha r, moveFromSregReg_undefined hp ha d⟩,
      moveToSregMem_undefined hp _ md r, moveFromSregMem_undefined hp _ md r, moveToSregMem_undefined hp _ true 14#4,
      moveFromSregMem_undefined hp _ true 14#4⟩
  · have hmove (f : AluForm) (hw : f.dest.writes = true) (ht : f.threeOp = false) (g : Calc) (word : Half) :
        aluMem f g word d false r s = .refused .operand1Differs :=
      aluMem_refused (memoryRefusal_operand1Differs hw ht ha hr) g word
    exact ⟨hmove (formMove .byte) rfl rfl _ _, hmove (formMove .word) rfl rfl _ _, hmove (formMove .dword) rfl rfl _ _,
      hmove (formMoveUnsigned .byte) rfl rfl _ _, hmove (formMoveUnsigned .word) rfl rfl _ _,
      hmove (formMoveSigned .byte) rfl rfl _ _, hmove (formMoveSigned .word) rfl rfl _ _⟩
  · exact movemLoadOp_refused (movemRefusal_addressLoaded s h) _
  · exact movemLoadOp_refused (movemRefusal_assignRestart (fun _ => h) ha hre) _
  · exact movemStoreOp_refused (movemRefusal_assignRestart nofun ha hre) _

/-! ## O29: a result written to a register -/

/-- The low bits of a register replaced by those of a result (10_state.md R22). -/
theorem getLsbD_append_setWidth (k : Nat) {n : Nat} (old v : Word) {i : Nat} (hi : i < n + k) :
    (old.extractLsb' k n ++ v.setWidth k).getLsbD i = if i < k then v.getLsbD i else old.getLsbD i := by
  rw [BitVec.getLsbD_append]
  by_cases hk : i < k
  · simp [hk]
  · have hn : i - k < n := by omega
    simp [hk, hn, show k + (i - k) = i by omega]

theorem getLsbD_mergeSize (m : Size) (old v : Word) {i : Nat} (hi : i < 32) :
    (mergeSize m old v).getLsbD i = if i < widthOf m then v.getLsbD i else old.getLsbD i := by
  cases m with
  | byte => exact getLsbD_append_setWidth 8 old v hi
  | word => exact getLsbD_append_setWidth 16 old v hi
  | dword => simp [mergeSize, widthOf, hi]

theorem writeReg_form (r : RegNo) (v : Word) (s : State) : writeReg r v s =
    { s with regs := (writeReg r v s).regs, ssp := (writeReg r v s).ssp, usp := (writeReg r v s).usp } := by
  unfold writeReg
  split
  · rfl
  · split
    · split <;> rfl
    · rfl

/-- A write goes to the stack pointer of the current mode alone (10_state.md R24). -/
theorem writeReg_otherStack (r : RegNo) (v : Word) (s : State) :
    if s.mode = .user then (writeReg r v s).ssp = s.ssp else (writeReg r v s).usp = s.usp := by
  by_cases hm : s.mode = .user
  · rw [if_pos hm, writeReg]
    split
    · rfl
    · split <;> rfl
  · rw [if_neg hm, writeReg]
    split
    · rfl
    · split <;> rfl

theorem readReg_withFlags (q : RegNo) (f : Flags) (s : State) : readReg q (withFlags f s) = readReg q s := rfl

theorem withResult_eq (m : Size) (d : RegNo) (x : Word × Flags) (s : State) :
    withResult m d x s = withFlags x.2 (writeReg d (mergeSize m (readReg d s) x.1) s) := rfl

/-- Settles O29. -/
theorem partialWrites : Obligations.PartialWrites := by
  unfold Obligations.PartialWrites
  intro m d x s hd
  rw [withResult_eq]
  refine ⟨fun i hi => ?_, fun q hq => ?_, ?_, ?_⟩
  · rw [readReg_withFlags, readReg_writeReg_same hd, getLsbD_mergeSize m _ _ hi]
  · rw [readReg_withFlags, readReg_writeReg_other hq]
  · exact writeReg_otherStack d _ s
  · exact congrArg (withFlags x.2) (writeReg_form d _ s)

end Sys2Proof.Proofs
end

section
/-! O24 and O25: transfers of control to odd addresses, and PC where it has no meaning. -/

namespace Sys2Proof.Proofs

-- Declarations are checked one after another: many at once need more threads than the memory limit of the check allows.
set_option Elab.async false

open Sys2Proof.Machine Sys2Proof.Laws

/-! ## O25: PC as a destination that is not supported (U2) -/

section
variable {f : AluForm} {s : State}

theorem aluCore_pcDestination (hw : f.dest.writes = true) (hp : f.pcDest = false) (ha : s.prefixAddr = none) (g : Calc)
    (src : Word) : aluCore f g 15#4 src s = .refused .pcDestination := by
  simp [aluCore, destRefusal, ha, hw, hp]

theorem mulReg_pcDestination (ha : s.prefixAddr = none) (product : Word → Word → BitVec 64)
    (flags : BitVec 64 → Flags → Flags) (r : RegNo) : mulReg product flags 15#4 r s = .refused .pcDestination := by
  simp [mulReg, ha]

theorem memoryRefusal_pcDestination (hw : f.dest.writes = true) (ht : f.threeOp = true) (hp : f.pcDest = false)
    (md : Bool) (r : RegNo) : memoryRefusal f 15#4 md r s = some .pcDestination := by
  simp [memoryRefusal, hw, ht, hp]

/-- The 3-operand form writes Operand1. -/
theorem memoryRefusal_pcDestination_threeOperand (hw : f.dest.writes = true) (ht : f.threeOp = true)
    (hp : f.pcDest = false) (ha : s.prefixAddr.isSome = true) (d : RegNo) :
    memoryRefusal f d false 15#4 s = some .pcDestination := by
  by_cases hd : d = 15#4
  · exact hd ▸ memoryRefusal_pcDestination hw ht hp false 15#4
  · simp [memoryRefusal, memoryDest, destRefusal, hw, ht, hp, ha, hd]

/-! ## PC read beside in-line data (U9) -/

theorem memoryRefusal_pcReadWithInlineData (hr : f.dest.reads = true) (hp : f.pcDest = true) (ha : s.prefixAddr = none) :
    memoryRefusal f 15#4 true 15#4 s = some .pcReadWithInlineData := by
  simp [memoryRefusal, isInline, hr, hp, ha]

end

/-! ## PC assigned (U6 c) -/

section
variable {s : State} (ha : s.prefixAddr.isSome = true) (hd : s.delay = none)
include ha hd

theorem operandRefusal_assignToPc : operandRefusal true 15#4 s = some .assignToPc := by
  simp [operandRefusal, ha, hd]

theorem loadOperand_assignToPc (c : Ctx) (n : Nat) : loadOperand c true 15#4 n s = .stop (.refused .assignToPc) := by
  simp only [loadOperand, operandRefusal_assignToPc ha hd]

theorem storeOperand_assignToPc (c : Ctx) (n : Nat) (v : Word) :
    storeOperand c true 15#4 n v s = .stop (.refused .assignToPc) := by
  simp only [storeOperand, operandRefusal_assignToPc ha hd]

omit ha in
theorem destRefusal_noSlot {f : AluForm} {d : RegNo} (hf : f.dest.writes = true → f.pcDest = false → d ≠ 15#4) :
    destRefusal f d s = none := by
  unfold destRefusal
  split
  · next h =>
    simp only [Bool.and_eq_true, beq_iff_eq] at h
    have hp : f.pcDest = true := by
      rw [← Bool.not_eq_false]
      exact fun hp => hf h.1 hp h.2
    simp [hp, hd]
  · rfl

/-- No other ground to stop comes before it, but PC as an unsupported destination. -/
theorem memoryRefusal_assign_none {f : AluForm} {d : RegNo} (hf : f.dest.writes = true → f.pcDest = false → d ≠ 15#4) :
    memoryRefusal f d true 15#4 s = none := by
  have hinline : isInline true 15#4 s = false := by simp [isInline, Option.isNone_eq_false_iff.2 ha]
  have hdest : memoryDest f d true 15#4 s = d := by simp [memoryDest]
  have hsupported : (f.dest.writes && !f.pcDest && d == 15#4) = false := by simpa using hf
  simp [memoryRefusal, hinline, hdest, hsupported, destRefusal_noSlot hd hf]

theorem aluMem_assignToPc {f : AluForm} {d : RegNo} (hf : f.dest.writes = true → f.pcDest = false → d ≠ 15#4) (g : Calc)
    (word : Half) : aluMem f g word d true 15#4 s = .refused .assignToPc := by
  simp only [aluMem, memoryRefusal_assign_none ha hd hf, loadOperand_assignToPc ha hd, Act.finish]

theorem storeReg_assignToPc (m : Size) (word : Half) (r : RegNo) :
    storeReg m word r true 15#4 s = .refused .assignToPc := by
  simp only [storeReg, storeOperand_assignToPc ha hd, Act.finish]

theorem moveToSregMem_assignToPc {p : SReg} {z : Size} (hp : sregSize p = some z) (word : Half) :
    moveToSregMem word p true 15#4 s = .refused .assignToPc := by
  simp only [moveToSregMem, hp, loadOperand_assignToPc ha hd, Act.finish]

theorem moveFromSregMem_assignToPc {p : SReg} {z : Size} (hp : sregSize p = some z) (word : Half) :
    moveFromSregMem word p true 15#4 s = .refused .assignToPc := by
  simp only [moveFromSregMem, hp, storeOperand_assignToPc ha hd, Act.finish]

theorem jumpMem_assignToPc (k : JumpKind) (word : Half) : jumpMem k word true 15#4 s = .refused .assignToPc := by
  simp [jumpMem, hd, loadOperand_assignToPc ha hd, Act.finish]

theorem saveStatus_assignToPc (word : Half) : saveStatus word true 15#4 s = .refused .assignToPc := by
  simp only [saveStatus, operandRefusal_assignToPc ha hd]

theorem execRbf_assignToPc : execRbf true 15#4 s = .refused .assignToPc := by
  simp [execRbf, hd, operandRefusal_assignToPc ha hd]

theorem movemRefusal_assignToPc {load : Bool} {d : RegNo} (hre : restartCycle s = none)
    (hload : load = true → d ≠ 15#4) : movemRefusal load d true 15#4 s = some .assignToPc := by
  have hlt : load = true → d.toNat < 15 := fun h => by
    have := hload h
    bv_omega
  simpa [movemRefusal, hre, hd, operandRefusal_assignToPc ha hd] using hlt

end

/-- Settles O25. -/
theorem unsupportedPcUsesStop : Obligations.UnsupportedPcUsesStop := by
  unfold Obligations.UnsupportedPcUsesStop
  refine ⟨fun s r c o e ha => ?_, fun s md r => ?_, fun s ha => ?_, fun s d ha => ?_, fun s d p ha hd => ?_⟩
  · have addi (k : Nat) : aluReg (formUpdateNoPc .dword) (calcAddi k) 15#4 r s = .refused .pcDestination :=
      aluCore_pcDestination rfl rfl ha _ _
    have update (m : Size) (g : Calc) : aluReg (formUpdateNoPc m) g 15#4 r s = .refused .pcDestination :=
      aluCore_pcDestination rfl rfl ha g _
    have quick (g : Calc) (src : Word) : aluCore (formUpdateNoPc .dword) g 15#4 src s = .refused .pcDestination :=
      aluCore_pcDestination rfl rfl ha g src
    have bound (m : Size) : aluReg (formBound m) calcBound 15#4 r s = .refused .pcDestination :=
      aluCore_pcDestination rfl rfl ha _ _
    have neg (m : Size) : aluReg (formNeg m) (calcNeg m) 15#4 r s = .refused .pcDestination :=
      aluCore_pcDestination rfl rfl ha _ _
    have signed (m : Size) := mulReg_pcDestination ha (productSigned m) mulsFlags r
    have unsigned (m : Size) := mulReg_pcDestination ha (productUnsigned m) muluFlags r
    exact ⟨addi 0, addi 1, addi 2, bound .byte, bound .word, bound .dword, update .dword calcDstep,
      update .dword calcMstep, update .byte (calcLsl .byte), update .word (calcLsl .word), update .dword (calcLsl .dword),
      update .byte (calcLsr .byte), update .word (calcLsr .word), update .dword (calcLsr .dword),
      quick (calcLsl .dword) (c.setWidth 32), quick (calcLsr .dword) (c.setWidth 32), neg .byte, neg .word, neg .dword,
      signed .byte, signed .word, signed .dword, unsigned .byte, unsigned .word, unsigned .dword,
      quick calcSwap 8#32, quick calcSwap (o.setWidth 32),
      aluCore_pcDestination (f := formScc) rfl rfl ha (calcScc e) 0#32⟩
  · have bound (m : Size) (word : Half) : aluMem (formBound m) calcBound word 15#4 md r s = .refused .pcDestination :=
      aluMem_refused (memoryRefusal_pcDestination rfl rfl rfl md r) _ _
    exact ⟨bound .byte (encode (.boundBMem 15#4 md r)), bound .word (encode (.boundWMem 15#4 md r)),
      bound .dword (encode (.boundDMem 15#4 md r))⟩
  · have stop (f : AluForm) (hr : f.dest.reads = true) (hp : f.pcDest = true) (g : Calc) (word : Half) :
        aluMem f g word 15#4 true 15#4 s = .refused .pcReadWithInlineData :=
      aluMem_refused (memoryRefusal_pcReadWithInlineData hr hp ha) g word
    exact ⟨stop (formSized .byte) rfl rfl (calcAdd .byte) _, stop (formSized .word) rfl rfl (calcAdd .word) _, stop (formSized .dword) rfl rfl (calcAdd .dword) _,
      stop (formSized .byte) rfl rfl (calcSub .byte) _, stop (formSized .word) rfl rfl (calcSub .word) _, stop (formSized .dword) rfl rfl (calcSub .dword) _,
      stop (formSized .byte) rfl rfl (calcAnd .byte) _, stop (formSized .word) rfl rfl (calcAnd .word) _, stop (formSized .dword) rfl rfl (calcAnd .dword) _,
      stop (formSized .byte) rfl rfl (calcOr .byte) _, stop (formSized .word) rfl rfl (calcOr .word) _, stop (formSized .dword) rfl rfl (calcOr .dword) _,
      stop (formUnsigned .byte) rfl rfl (calcAdd .dword) _, stop (formUnsigned .word) rfl rfl (calcAdd .dword) _,
      stop (formSigned .byte) rfl rfl (calcAdd .dword) _, stop (formSigned .word) rfl rfl (calcAdd .dword) _,
      stop (formUnsigned .byte) rfl rfl (calcSub .dword) _, stop (formUnsigned .word) rfl rfl (calcSub .dword) _,
      stop (formSigned .byte) rfl rfl (calcSub .dword) _, stop (formSigned .word) rfl rfl (calcSub .dword) _,
      stop (formCompare .byte) rfl rfl (calcSub .byte) _, stop (formCompare .word) rfl rfl (calcSub .word) _, stop (formCompare .dword) rfl rfl (calcSub .dword) _,
      stop (formCompareUnsigned .byte) rfl rfl (calcSub .dword) _, stop (formCompareUnsigned .word) rfl rfl (calcSub .dword) _,
      stop (formCompareSigned .byte) rfl rfl (calcSub .dword) _, stop (formCompareSigned .word) rfl rfl (calcSub .dword) _⟩
  · have bound (m : Size) (word : Half) : aluMem (formBound m) calcBound word d false 15#4 s = .refused .pcDestination :=
      aluMem_refused (memoryRefusal_pcDestination_threeOperand rfl rfl rfl ha d) _ _
    exact ⟨bound .byte _, bound .word _, bound .dword _⟩
  · have assign (f : AluForm) (hp : f.pcDest = true) (g : Calc) (word : Half) (q : RegNo) :
        aluMem f g word q true 15#4 s = .refused .assignToPc :=
      aluMem_assignToPc ha hd (fun _ hno => by simp [hp] at hno) g word
    have store (m : Size) (word : Half) := storeReg_assignToPc ha hd m word d
    have clear (q : SReg) (z : Size) (hq : sregSize q = some z) (word : Half) :=
      moveFromSregMem_assignToPc ha hd hq word
    have jump (k : JumpKind) (word : Half) := jumpMem_assignToPc ha hd k word
    have bound (h : d ≠ 15#4) (m : Size) (word : Half) :
        aluMem (formBound m) calcBound word d true 15#4 s = .refused .assignToPc :=
      aluMem_assignToPc ha hd (fun _ _ => h) _ word
    refine ⟨assign (formSized .byte) rfl (calcAdd .byte) _ _, assign (formSized .word) rfl (calcAdd .word) _ _, assign (formSized .dword) rfl (calcAdd .dword) _ _,
      assign (formSized .byte) rfl (calcSub .byte) _ _, assign (formSized .word) rfl (calcSub .word) _ _, assign (formSized .dword) rfl (calcSub .dword) _ _,
      assign (formSized .byte) rfl (calcAnd .byte) _ _, assign (formSized .word) rfl (calcAnd .word) _ _, assign (formSized .dword) rfl (calcAnd .dword) _ _,
      assign (formSized .byte) rfl (calcOr .byte) _ _, assign (formSized .word) rfl (calcOr .word) _ _, assign (formSized .dword) rfl (calcOr .dword) _ _,
      assign (formUnsigned .byte) rfl (calcAdd .dword) _ _, assign (formUnsigned .word) rfl (calcAdd .dword) _ _,
      assign (formSigned .byte) rfl (calcAdd .dword) _ _, assign (formSigned .word) rfl (calcAdd .dword) _ _,
      assign (formUnsigned .byte) rfl (calcSub .dword) _ _, assign (formUnsigned .word) rfl (calcSub .dword) _ _,
      assign (formSigned .byte) rfl (calcSub .dword) _ _, assign (formSigned .word) rfl (calcSub .dword) _ _,
      assign (formCompare .byte) rfl (calcSub .byte) _ _, assign (formCompare .word) rfl (calcSub .word) _ _, assign (formCompare .dword) rfl (calcSub .dword) _ _,
      assign (formCompareUnsigned .byte) rfl (calcSub .dword) _ _, assign (formCompareUnsigned .word) rfl (calcSub .dword) _ _,
      assign (formCompareSigned .byte) rfl (calcSub .dword) _ _, assign (formCompareSigned .word) rfl (calcSub .dword) _ _,
      assign (formMove .byte) rfl (calcMove .byte) _ _, assign (formMove .word) rfl (calcMove .word) _ _, assign (formMove .dword) rfl (calcMove .dword) _ _,
      assign (formMoveUnsigned .byte) rfl calcMovu _ _, assign (formMoveUnsigned .word) rfl calcMovu _ _,
      assign (formMoveSigned .byte) rfl (calcMove .dword) _ _, assign (formMoveSigned .word) rfl (calcMove .dword) _ _,
      store .byte _, store .word _, store .dword _,
      assign (formTest .byte) rfl (calcMove .byte) _ _, assign (formTest .word) rfl (calcMove .word) _ _, assign (formTest .dword) rfl (calcMove .dword) _ _,
      clear .p0 _ rfl _, clear .p4 _ rfl _, clear .p8 _ rfl _, saveStatus_assignToPc ha hd _, execRbf_assignToPc ha hd,
      jump _ _, jump _ _, jump _ _, jump _ _, jump _ _, jump _ _, jump _ _,
      fun h => ⟨bound h .byte _, bound h .word _, bound h .dword _⟩, fun hp => ?_, fun hre => ⟨?_, fun h => ?_⟩⟩
    · obtain ⟨z, hz⟩ := Option.ne_none_iff_exists'.1 hp
      exact ⟨moveToSregMem_assignToPc ha hd hz _, moveFromSregMem_assignToPc ha hd hz _⟩
    · exact movemStoreOp_refused (movemRefusal_assignToPc ha hd hre nofun) _
    · exact movemLoadOp_refused (movemRefusal_assignToPc ha hd hre fun _ => h) _

/-! ## O24: transfers of control to odd addresses (U3) -/

/-- A jump after the link has been saved, to an odd address. -/
theorem jumpWith_odd (k : JumpKind) (seq : Word) {target : Word} {s : State} (hd : s.delay = none)
    (ht : target.getLsbD 0 = true) : jumpWith k seq target s = .fault (.oddTarget target) :=
  complete_jump_odd seq target true ((saveLink_kept k seq s).delay.trans hd) ht

theorem jumpReg_odd (k : JumpKind) {r : RegNo} {s : State} (ha : s.prefixAddr = none) (hd : s.delay = none)
    (ht : (readReg r s).getLsbD 0 = true) : jumpReg k r s = .fault (.oddTarget (readReg r s)) := by
  have href : transferRefusal s = none := by simp [transferRefusal, ha, hd]
  simp only [jumpReg, href, jumpWith_odd k _ hd ht]

theorem jumpMem_odd (k : JumpKind) (word : Half) {md : Bool} {r : RegNo} {s : State} (h : OperandReady md r 4 s)
    (hd : s.delay = none) (ht : (memoryValue r 4 s).getLsbD 0 = true) :
    jumpMem k word md r s = .fault (.oddTarget (memoryValue r 4 s)) := by
  obtain ⟨s₁, hread, hload⟩ := loadOperand_ready { word := word, endPc := endAddress md r 4 s } (.inr rfl) h
  have hd₁ : (updateAddress md r 4 (operandAddress r s) s₁).delay = none :=
    (updateAddress_delay ..).trans ((readOnly_delay hread).trans hd)
  simp only [jumpMem, hd, Option.isSome_none, Bool.false_eq_true, if_false, hload, Act.finish, jumpWith_odd k _ hd₁ ht]

/-- The end of a delay slot whose target is odd. -/
theorem complete_slot_odd (seq : Word) (w k : Bool) {s : State} {d : Delay} (hs : s.delay = some d)
    (ht : d.target.getLsbD 0 = true) :
    complete { seq := seq, transfer := .none, window := w, keepX := k } s = .fault (.oddTarget d.target) := by
  simp only [complete, hs, endSlot, jumpTo, ht, if_true]

theorem plain_writeReg {s : State} (h : Plain s) (r : RegNo) (v : Word) : Plain (writeReg r v s) :=
  ⟨by simpa using h.mmuOff, by simpa using h.testOff, by simpa using h.noSingleStep, by simpa using h.noWindows,
    by simpa using h.noOutside⟩

theorem readable_writeReg {s : State} {a : Word} {n : Nat} (h : Readable s a n) (r : RegNo) (v : Word) :
    Readable (writeReg r v s) a n :=
  fun i hi => by simpa [regionKind] using h i hi

/-- Registers loaded from readable memory: no cycle stands in the way. -/
theorem loadRegs_done (c : Ctx) (n : Nat) : ∀ {a : Word} {s : State}, Plain s → Readable s a (4 * n) →
    ∃ s', s'.delay = s.delay ∧ loadRegs c false n none a s = .done () s' := by
  induction n with
  | zero => exact fun {_ s} _ _ => ⟨s, rfl, rfl⟩
  | succ n ih =>
    intro a s h hr
    obtain ⟨s₁, hread, hdone⟩ := dataRead_plain { c with word := movemWord c.word n } h (readable_of_le hr (k := 4) (by omega))
    have hrest : Readable s (a + 4#32) (4 * n) := by simpa [Nat.mul_add] using readable_suffix hr 4
    obtain ⟨s₂, hdelay, hload⟩ := ih (plain_writeReg (readOnly_plain hread h) (BitVec.ofNat 4 n) (loadBytes s.mem a 4))
      (readable_writeReg (readOnly_readable hread hrest) _ _)
    refine ⟨s₂, ?_, ?_⟩
    · rw [hdelay, writeReg_delay, readOnly_delay hread]
    · simp only [loadRegs, readOperand, Bool.false_eq_true, if_false, hdone, Act.andThen, hload]

/-- MOVEM to PC from an odd dword. -/
theorem movemLoadOp_odd (word : Half) {r : RegNo} {s : State} (h : Plain s) (hre : s.resume = none) (hd : s.delay = none)
    (hr : Readable s (operandAddress r s) 64) (ht : (loadBytes s.mem (operandAddress r s) 4).getLsbD 0 = true) :
    movemLoadOp word 15#4 false r s = .fault (.oddTarget (loadBytes s.mem (operandAddress r s) 4)) := by
  have href : movemRefusal true 15#4 false r s = none := by simp [movemRefusal, operandRefusal, hd]
  have hcycle : restartCycle s = none := by simp [restartCycle, hre]
  unfold movemLoadOp
  rw [href]
  dsimp only
  rw [if_pos rfl, hcycle, show isInline false r s = false from rfl]
  generalize endAddress false r _ s = seq
  obtain ⟨s₁, hread, hfirst⟩ := dataRead_plain { word := movemWord word 15, endPc := seq } h
    (readable_of_le hr (k := 4) (by decide))
  obtain ⟨s₂, hdelay, hload⟩ := loadRegs_done { word := word, endPc := seq, pcLoaded := true } 15
    (a := operandAddress r s + 4#32) (readOnly_plain hread h) (readOnly_readable hread (readable_suffix hr 4))
  have hd₂ : s₂.delay = none := hdelay.trans ((readOnly_delay hread).trans hd)
  simp only [readOperand, Bool.false_eq_true, if_false, hfirst, Act.finish, hload]
  exact complete_jump_odd _ _ _ hd₂ ht

/-- The vector of an event stands at IBR + 4v (60_exceptions.md R459). -/
theorem vectorAddress_eq_vectorAt (v : Byte) (s : State) : vectorAddress v s = vectorAt s v.toNat := by
  have hv := v.isLt
  have hibr := s.sregs.ibr.isLt
  apply BitVec.eq_of_toNat_eq
  have hor : s.sregs.ibr.toNat * 2 ^ 16 ||| 4 * v.toNat = s.sregs.ibr.toNat * 2 ^ 16 + 4 * v.toNat := by
    rw [← Nat.shiftLeft_eq, Nat.shiftLeft_add_eq_or_of_lt (by omega)]
  have hlow : v.toNat % 2 ^ 16 * 2 ^ 2 % 2 ^ 16 = 4 * v.toNat := by omega
  simp only [vectorAddress, vectorAt, BitVec.toNat_append, BitVec.toNat_add, BitVec.toNat_ofNat, BitVec.toNat_shiftLeft,
    BitVec.toNat_setWidth, Nat.shiftLeft_eq, hlow, hor, Nat.zero_mod, Nat.or_zero]
  omega

/-- An exception whose vector is odd, its vector read with nothing in its way. -/
theorem takeException_odd {e : Event} {s : State} (h : Plain (acknowledge e s))
    (hr : Readable (acknowledge e s) (vectorAt (acknowledge e s) (eventVector e).toNat) 4)
    (ht : (loadBytes (acknowledge e s).mem (vectorAt (acknowledge e s) (eventVector e).toNat) 4).getLsbD 0 = true) :
    takeException e s =
      .fault (.oddTarget (loadBytes (acknowledge e s).mem (vectorAt (acknowledge e s) (eventVector e).toNat) 4)) := by
  simp only [takeException, takeEvent, vectorAddress_eq_vectorAt, busCycle_read_plain h hr, enterHandler, ht, if_true]

@[simp] theorem popIrq_hwbreakPending (s : State) : (popIrq s).2.hwbreakPending = s.hwbreakPending := by
  unfold popIrq
  split <;> rfl

/-- The event check takes one answer of the oracle. -/
theorem popIrq_form (s : State) : (popIrq s).2 = { s with irqs := (popIrq s).2.irqs } := by
  unfold popIrq
  split <;> rfl

/-- Settles O24. -/
theorem oddTargetsStop : Obligations.OddTargetsStop := by
  unfold Obligations.OddTargetsStop
  refine ⟨fun s r ha hd ht => ?_, fun s r md h hd ht => ?_, fun s r h hre hd hr ht => ?_, fun s d ha hs ht => ?_,
    fun s hre hi hb h hr ht => ?_⟩
  · have jump (k : JumpKind) := jumpReg_odd k ha hd ht
    exact ⟨jump kindJump, jump kindJirc, jump kindJsrc, jump kindJbrc, jump kindJir, jump kindJsr⟩
  · have jump (k : JumpKind) (word : Half) := jumpMem_odd k word h hd ht
    exact ⟨jump kindJump _, jump kindJirc _, jump kindJsrc _, jump kindJbrc _, jump kindJir _, jump kindJsr _,
      jump kindJmpu _⟩
  · exact movemLoadOp_odd _ h hre hd hr ht
  · have hnop : exec .nop s = complete (ending (pcPlus2 s) .none false) s := by
      show execNop s = _
      simp [execNop, ha]
    exact hnop.trans (complete_slot_odd _ _ _ hs ht)
  · have hevent : pendingEvent (popIrq s).1 (popIrq s).2 = some .hwBreak := by
      simp [pendingEvent, hi, hb]
    have hstep : step s = takeException .hwBreak (popIrq s).2 := by
      simp only [step, hre, checkAndRun, hevent]
    rw [hstep, popIrq_form]
    exact takeException_odd (e := .hwBreak) ⟨h.mmuOff, h.testOff, h.noSingleStep, h.noWindows, h.noOutside⟩ hr ht

end Sys2Proof.Proofs
end

section
/-! O39 and O45: the calculations in the words of the claims, and results written to PC. -/

namespace Sys2Proof.Proofs

-- Declarations are checked one after another: many at once need more threads than the memory limit of the check allows.
set_option Elab.async false

open Sys2Proof.Machine Sys2Proof.Laws

/-! ## Numbers at a size -/

theorem unsignedAt_lt (m : Size) (v : Word) : unsignedAt m v < 2 ^ widthOf m := Nat.mod_lt _ (Nat.two_pow_pos _)

theorem toNat_patternAt (m : Size) (x : Int) : ((patternAt m x).toNat : Int) = x % 2 ^ widthOf m := by
  rw [patternAt, BitVec.toNat_ofInt]
  cases m <;> simp only [widthOf] <;> omega

theorem unsignedAt_truncSize (m : Size) (v : Word) : unsignedAt m (truncSize m v) = unsignedAt m v := by
  rw [unsignedAt, toNat_truncSize]
  exact Nat.mod_mod ..

theorem truncSize_truncSize (m : Size) (v : Word) : truncSize m (truncSize m v) = truncSize m v :=
  BitVec.eq_of_toNat_eq (by rw [toNat_truncSize, unsignedAt_truncSize, toNat_truncSize])

/-- The most significant bit is set in the upper half of the patterns. -/
theorem msbSize_eq (m : Size) (v : Word) : msbSize m v = decide (2 ^ (widthOf m - 1) ≤ unsignedAt m v) := by
  rw [← signedAt_neg_eq_msbSize, decide_eq_decide, signedAt_neg_iff]

theorem msbSize_truncSize (m : Size) (v : Word) : msbSize m (truncSize m v) = msbSize m v := by
  rw [msbSize_eq, msbSize_eq, unsignedAt_truncSize]

theorem two_pow_widthOf (m : Size) : 2 ^ widthOf m = 2 * 2 ^ (widthOf m - 1) := by
  cases m <;> rfl

theorem toNat_carryIn (f : Flags) : (carryIn f).toNat = carryOf f := by
  unfold carryIn carryOf
  split <;> rfl

theorem carryOf_le_one (f : Flags) : carryOf f ≤ 1 := by
  unfold carryOf
  split <;> decide

/-- N and Z of a result from its bits (10_state.md R39). -/
theorem flagsOf_eq (m : Size) (r : Word) (v c : Bool) (f : Flags) :
    flagsOf m r v c f = { setNZ m r f with v := v, c := c } := by
  simp only [flagsOf, signedAt_neg_eq_msbSize, unsignedAt_zero_eq, setNZ, zeroFlag]
  rfl

/-! ## Carry and overflow from most significant bits

`H` is half the number of patterns, so `H ≤ A` is the most significant bit of `A`. -/

/-- A pattern as a two's complement number. -/
def signedOf (H A : Nat) : Int := if A < H then A else A - 2 * H

theorem signedAt_eq_signedOf (m : Size) (v : Word) : signedAt m v = signedOf (2 ^ (widthOf m - 1)) (unsignedAt m v) := by
  have h : (2 : Int) ^ widthOf m = 2 * (2 ^ (widthOf m - 1) : Nat) := by cases m <;> rfl
  rw [signedAt, signedOf, h]

section
variable {H A B R c : Nat} (hA : A < 2 * H) (hB : B < 2 * H) (hc : c ≤ 1)
include hA hB hc

/-- R40: C of a sum is its carry out. -/
theorem carry_of_msbs (hR : R = if A + B + c < 2 * H then A + B + c else A + B + c - 2 * H) :
    (decide (H ≤ B) && decide (H ≤ A) || decide (H ≤ A) && !decide (H ≤ R) || decide (H ≤ B) && !decide (H ≤ R)) =
      decide (2 * H ≤ A + B + c) := by
  rw [Bool.eq_iff_iff]
  simp only [Bool.or_eq_true, Bool.and_eq_true, Bool.not_eq_true', decide_eq_true_eq, decide_eq_false_iff_not]
  split at hR <;> omega

/-- R40: V of a sum says that the signed sum does not fit. -/
theorem sum_overflow_of_msbs (hR : R = if A + B + c < 2 * H then A + B + c else A + B + c - 2 * H) :
    (decide (H ≤ B) && decide (H ≤ A) && !decide (H ≤ R) || !decide (H ≤ B) && !decide (H ≤ A) && decide (H ≤ R)) =
      decide (signedOf H A + signedOf H B + c ≠ signedOf H R) := by
  rw [Bool.eq_iff_iff]
  simp only [Bool.or_eq_true, Bool.and_eq_true, Bool.not_eq_true', decide_eq_true_eq, decide_eq_false_iff_not]
  unfold signedOf
  split at hR <;> split_ifs <;> omega

/-- R40: C of a difference is its borrow. -/
theorem borrow_of_msbs (hR : R = if A < B + c then A + 2 * H - B - c else A - B - c) :
    (decide (H ≤ B) && !decide (H ≤ A) || !decide (H ≤ A) && decide (H ≤ R) || decide (H ≤ B) && decide (H ≤ R)) =
      decide (A < B + c) := by
  rw [Bool.eq_iff_iff]
  simp only [Bool.or_eq_true, Bool.and_eq_true, Bool.not_eq_true', decide_eq_true_eq, decide_eq_false_iff_not]
  split at hR <;> omega

/-- R40: V of a difference says that the signed difference does not fit. -/
theorem difference_overflow_of_msbs (hR : R = if A < B + c then A + 2 * H - B - c else A - B - c) :
    (!decide (H ≤ B) && decide (H ≤ A) && !decide (H ≤ R) || decide (H ≤ B) && !decide (H ≤ A) && decide (H ≤ R)) =
      decide (signedOf H A - signedOf H B - c ≠ signedOf H R) := by
  rw [Bool.eq_iff_iff]
  simp only [Bool.or_eq_true, Bool.and_eq_true, Bool.not_eq_true', decide_eq_true_eq, decide_eq_false_iff_not]
  unfold signedOf
  split at hR <;> split_ifs <;> omega

end

/-! ## Sums and differences -/

/-- The sum of the patterns, less one modulus if it is out of range. -/
theorem unsignedAt_sum (m : Size) (f : Flags) (a b : Word) :
    unsignedAt m (truncSize m a + truncSize m b + carryIn f) =
      if unsignedAt m a + unsignedAt m b + carryOf f < 2 ^ widthOf m then unsignedAt m a + unsignedAt m b + carryOf f
      else unsignedAt m a + unsignedAt m b + carryOf f - 2 ^ widthOf m := by
  have hc := carryOf_le_one f
  have ha := unsignedAt_lt m a
  have hb := unsignedAt_lt m b
  rw [unsignedAt, BitVec.toNat_add, BitVec.toNat_add, toNat_truncSize, toNat_truncSize, toNat_carryIn]
  split <;> cases m <;> simp only [widthOf] at * <;> omega

/-- The difference of the patterns, one modulus more if it is out of range. -/
theorem unsignedAt_difference (m : Size) (f : Flags) (a b : Word) :
    unsignedAt m (truncSize m a - truncSize m b - carryIn f) =
      if unsignedAt m a < unsignedAt m b + carryOf f then unsignedAt m a + 2 ^ widthOf m - unsignedAt m b - carryOf f
      else unsignedAt m a - unsignedAt m b - carryOf f := by
  have hc := carryOf_le_one f
  have ha := unsignedAt_lt m a
  have hb := unsignedAt_lt m b
  rw [unsignedAt, BitVec.toNat_sub, BitVec.toNat_sub, toNat_truncSize, toNat_truncSize, toNat_carryIn]
  split <;> cases m <;> simp only [widthOf] at * <;> omega

/-- A pattern is determined by its remainder. -/
theorem patternAt_eq_truncSize (m : Size) {x : Int} {v : Word} (h : x % 2 ^ widthOf m = unsignedAt m v) :
    patternAt m x = truncSize m v := by
  have hx := toNat_patternAt m x
  rw [h, ← toNat_truncSize] at hx
  exact BitVec.eq_of_toNat_eq (mod_cast hx)

/-- The exact sum, truncated. -/
theorem patternAt_sum (m : Size) (f : Flags) (a b : Word) :
    patternAt m (unsignedAt m a + unsignedAt m b + carryOf f) =
      truncSize m (truncSize m a + truncSize m b + carryIn f) := by
  apply patternAt_eq_truncSize
  have hc := carryOf_le_one f
  have ha := unsignedAt_lt m a
  have hb := unsignedAt_lt m b
  rw [unsignedAt_sum]
  split <;> cases m <;> simp only [widthOf] at * <;> omega

/-- The exact difference, truncated. -/
theorem patternAt_difference (m : Size) (f : Flags) (a b : Word) :
    patternAt m (unsignedAt m a - unsignedAt m b - carryOf f) =
      truncSize m (truncSize m a - truncSize m b - carryIn f) := by
  apply patternAt_eq_truncSize
  have hc := carryOf_le_one f
  have ha := unsignedAt_lt m a
  have hb := unsignedAt_lt m b
  rw [unsignedAt_difference]
  split <;> cases m <;> simp only [widthOf] at * <;> omega

/-- ADD and its kind, in exact integers (42_arithmetic.md R285, R287 to R289). -/
theorem calcAdd_eq_sumOf (m : Size) (f : Flags) (a b : Word) :
    calcAdd m f (truncSize m a) (truncSize m b) = sumOf m f a b := by
  have hA := two_pow_widthOf m ▸ unsignedAt_lt m a
  have hB := two_pow_widthOf m ▸ unsignedAt_lt m b
  have hR := two_pow_widthOf m ▸ unsignedAt_sum m f a b
  have hcarry := carry_of_msbs hA hB (carryOf_le_one f) hR
  have hoverflow := sum_overflow_of_msbs hA hB (carryOf_le_one f) hR
  simp only [calcAdd, addFlags, sumOf, patternAt_sum, flagsOf_eq, msbSize_eq, signedAt_eq_signedOf,
    unsignedAt_truncSize, hcarry, hoverflow, two_pow_widthOf]

/-- SUB, CMP and their kind, in exact integers (42_arithmetic.md R291 to R294, R298 to R301). -/
theorem calcSub_eq_differenceOf (m : Size) (f : Flags) (a b : Word) :
    calcSub m f (truncSize m a) (truncSize m b) = differenceOf m f a b := by
  have hA := two_pow_widthOf m ▸ unsignedAt_lt m a
  have hB := two_pow_widthOf m ▸ unsignedAt_lt m b
  have hR := two_pow_widthOf m ▸ unsignedAt_difference m f a b
  have hborrow := borrow_of_msbs hA hB (carryOf_le_one f) hR
  have hoverflow := difference_overflow_of_msbs hA hB (carryOf_le_one f) hR
  simp only [calcSub, subFlags, differenceOf, patternAt_difference, flagsOf_eq, msbSize_eq,
    signedAt_eq_signedOf, unsignedAt_truncSize, hborrow, hoverflow]

/-! ## Extended operands -/

theorem patternAt_dword_eq {x : Int} {v : Word} (h : x % 2 ^ 32 = v.toNat) : patternAt .dword x = v := by
  refine patternAt_eq_truncSize .dword (h.trans ?_)
  rw [← toNat_truncSize]
  rfl

theorem toInt_emod (v : Word) : v.toInt % 2 ^ 32 = v.toNat := by
  have := v.isLt
  rw [BitVec.toInt_eq_toNat_cond]
  split <;> omega

/-- A pattern and the number it stands for have the same remainders. -/
theorem unsignedAt_toInt (m : Size) (v : Word) : v.toInt % 2 ^ widthOf m = unsignedAt m v := by
  have h := toInt_emod v
  rw [unsignedAt]
  cases m <;> simp only [widthOf] <;> omega

theorem signedAt_truncSize (m : Size) (v : Word) : signedAt m (truncSize m v) = signedAt m v := by
  rw [signedAt, signedAt, unsignedAt_truncSize]

/-- Sign extension keeps the number (00_scope.md R9). -/
theorem toInt_sextSize (m : Size) (v : Word) : (sextSize m v).toInt = signedAt m v := by
  have := v.isLt
  cases m with
  | byte | word =>
    rw [sextSize, BitVec.toInt_signExtend_of_le (by decide), BitVec.toInt_eq_toNat_cond, BitVec.toNat_setWidth, signedAt,
      unsignedAt, widthOf]
    split <;> split <;> omega
  | dword =>
    rw [sextSize, BitVec.toInt_eq_toNat_cond, signedAt, unsignedAt, widthOf]
    split <;> split <;> omega

theorem signExtended_eq_sextSize (m : Size) (v : Word) : signExtended m v = sextSize m v :=
  patternAt_dword_eq (by rw [← toInt_sextSize, toInt_emod])

/-! ## The other calculations -/

theorem truncSize_and (m : Size) (a b : Word) : truncSize m (truncSize m a &&& truncSize m b) = truncSize m (a &&& b) := by
  cases m <;> simp [truncSize, BitVec.setWidth_and]

theorem truncSize_or (m : Size) (a b : Word) : truncSize m (truncSize m a ||| truncSize m b) = truncSize m (a ||| b) := by
  cases m <;> simp [truncSize, BitVec.setWidth_or]

theorem calcAnd_eq_andOf (m : Size) (f : Flags) (a b : Word) :
    calcAnd m f (truncSize m a) (truncSize m b) = andOf m f a b := by
  rw [andOf, plainResult_eq_setNZ00, zeroExtended_eq_truncSize, ← truncSize_and]
  rfl

theorem calcOr_eq_orOf (m : Size) (f : Flags) (a b : Word) :
    calcOr m f (truncSize m a) (truncSize m b) = orOf m f a b := by
  rw [orOf, plainResult_eq_setNZ00, zeroExtended_eq_truncSize, ← truncSize_or]
  rfl

theorem calcXor_eq_plainResult (f : Flags) (a b : Word) : calcXor f a b = plainResult .dword f (a ^^^ b) := by
  rw [plainResult_eq_setNZ00, calcXor]

/-- MOVS moves the sign-extended operand. -/
theorem calcMove_dword_eq_movedOf (f : Flags) (d v : Word) : calcMove .dword f d v = movedOf .dword f v :=
  calcMove_truncSize .dword f d v

/-- MOVU clears N, which a zero-extended byte or word clears by itself (41_data_transfer.md R252). -/
theorem calcMovu_eq_movedOf {z : Size} (hz : z ≠ .dword) (f : Flags) (d v : Word) :
    calcMovu f d (truncSize z v) = movedOf .dword f (zeroExtended z v) := by
  have hn : msbSize .dword (truncSize z v) = false := by
    have := unsignedAt_lt z v
    rw [msbSize_eq, unsignedAt, toNat_truncSize, decide_eq_false_iff_not]
    cases z <;> simp_all only [widthOf, ne_eq, not_true_eq_false] <;> omega
  rw [zeroExtended_eq_truncSize, ← calcMove_dword_eq_movedOf f d, calcMovu, calcMove, setNZ00, setNZ, hn]

/-- The six-bit count (43_logic_shift_bit.md R342; log 35). -/
theorem shiftCount_eq (v : Word) : shiftCount v = v.toNat % 64 := by
  rw [shiftCount, BitVec.toNat_and]
  exact Nat.and_two_pow_sub_one_eq_mod v.toNat 6

theorem shiftCount_truncSize (m : Size) (v : Word) : shiftCount (truncSize m v) = v.toNat % 64 := by
  rw [shiftCount_eq, toNat_truncSize, unsignedAt]
  cases m <;> simp only [widthOf] <;> omega

/-- ASR is the signed quotient rounded down (43_logic_shift_bit.md R349). -/
theorem calcAsr_eq_signedShiftOf (m : Size) (f : Flags) (a b : Word) :
    calcAsr m f (truncSize m a) b = signedShiftOf m f a (shiftCount b) := by
  have hr : patternAt m (signedAt m a / 2 ^ min (shiftCount b) 31) =
      truncSize m ((sextSize m (truncSize m a)).sshiftRight (min (shiftCount b) 31)) := by
    apply patternAt_eq_truncSize
    rw [← unsignedAt_toInt, BitVec.toInt_sshiftRight, toInt_sextSize, signedAt_truncSize, Int.shiftRight_eq_div_pow]
    norm_cast
  rw [signedShiftOf, plainResult_eq_setNZ00, hr, calcAsr]

theorem signedAt_dword_neg_iff (v : Word) : signedAt .dword v < 0 ↔ v.msb = true := by
  have h := signedAt_neg_eq_msbSize .dword v
  rw [msbSize, ← BitVec.msb_eq_getLsbD_last (x := v)] at h
  rw [← h, decide_eq_true_eq]

/-- ABS (42_arithmetic.md R284; log 14). -/
theorem calcAbs_eq_absOf (f : Flags) (d v : Word) : calcAbs f d v = absOf f v := by
  have hneg : patternAt .dword (0 - signedAt .dword v - carryOf f) = 0#32 - v - carryIn f := by
    apply patternAt_dword_eq
    have := v.isLt
    have hc := carryOf_le_one f
    rw [← toInt_sextSize, sextSize, BitVec.toNat_sub, BitVec.toNat_sub, toNat_carryIn, BitVec.toInt_eq_toNat_cond]
    simp only [BitVec.toNat_ofNat]
    split <;> omega
  simp only [absOf, plainResult_eq_setNZ00, hneg, signedAt_dword_neg_iff, calcAbs]

/-- The leading zeros among the low bits, by the logarithm of what they hold. -/
theorem leadingZeros_eq (v : Word) (n : Nat) :
    leadingZeros v n = if v.toNat % 2 ^ n = 0 then n else n - 1 - (v.toNat % 2 ^ n).log2 := by
  induction n with
  | zero => simp [leadingZeros, Nat.mod_one]
  | succ n ih =>
    have hlt := Nat.mod_lt v.toNat (Nat.two_pow_pos n)
    have hbit : v.getLsbD n = decide (v.toNat / 2 ^ n % 2 = 1) := by
      rw [← BitVec.testBit_toNat, Nat.testBit_eq_decide_div_mod_eq]
    rw [leadingZeros, hbit, Nat.mod_pow_succ]
    rcases Nat.mod_two_eq_zero_or_one (v.toNat / 2 ^ n) with h0 | h1
    · simp only [h0, Nat.zero_ne_one, decide_false, Bool.false_eq_true, if_false, Nat.mul_zero, Nat.add_zero, ih]
      split
      · rfl
      · next h =>
        have := (Nat.log2_lt h).2 hlt
        omega
    · have hlog : (v.toNat % 2 ^ n + 2 ^ n).log2 = n :=
        (Nat.log2_eq_iff (by omega)).2 ⟨by omega, by rw [Nat.pow_succ]; omega⟩
      simp [h1, hlog]

theorem leadingZeros_eq_leadingZerosOf (v : Word) : leadingZeros v 32 = leadingZerosOf v := by
  rw [leadingZeros_eq, Nat.mod_eq_of_lt v.isLt, leadingZerosOf]

/-- LZ clears N, as a count of at most 32 does by itself (43_logic_shift_bit.md R357). -/
theorem calcLz_eq_plainResult (f : Flags) (d v : Word) :
    calcLz f d v = plainResult .dword f (BitVec.ofNat 32 (leadingZerosOf v)) := by
  have hle : leadingZerosOf v ≤ 32 := by
    unfold leadingZerosOf
    split <;> omega
  have hn : msbSize .dword (BitVec.ofNat 32 (leadingZerosOf v)) = false := by
    rw [msbSize_eq, unsignedAt, BitVec.toNat_ofNat, decide_eq_false_iff_not]
    simp only [widthOf]
    omega
  rw [plainResult_eq_setNZ00, calcLz, leadingZeros_eq_leadingZerosOf, setNZ00, setNZ, hn]
  rfl

/-! ## Results written to PC (10_state.md R30) -/

/-- A result written to PC outside a delay slot is a jump. -/
theorem writeBack_pcResult {f : AluForm} (hw : f.dest.writes = true) (hwin : f.window = false) (x : Word × Flags)
    (seq : Word) {s : State} (hd : s.delay = none) : writeBack f 15#4 x.1 x.2 seq s = pcResult f.size x s := by
  simp only [writeBack, hw, if_true, pcResult, hwin]
  split
  · next h => exact complete_jump_odd _ _ _ hd h
  · next h => exact complete_jump _ _ _ hd (by simpa only [Bool.not_eq_true] using h)

/-- Quick and register forms whose calculation gives `x`. -/
theorem aluCore_pcResult {f : AluForm} (hw : f.dest.writes = true) (hpc : f.pcDest = true) (hwin : f.window = false)
    {g : Calc} {src : Word} {x : Word × Flags} {s : State} (ha : s.prefixAddr = none) (hd : s.delay = none)
    (hx : g s.flags (truncSize f.size (pcPlus2 s)) src = x) : aluCore f g 15#4 src s = pcResult f.size x s := by
  rw [aluCore_pc f g src ha hd hw hpc, hx, hwin]
  rfl

/-- Memory forms whose calculation gives `x`. -/
theorem aluMem_pcResult {f : AluForm} (hw : f.dest.writes = true) (hwin : f.window = false) {g : Calc} (word : Half)
    {d : RegNo} {md : Bool} {r : RegNo} {x : Word × Flags} {s : State} (h : OperandReady md r (sizeBytes f.access) s)
    (hd : s.delay = none) (href : memoryRefusal f d md r s = none) (hdest : memoryDest f d md r s = 15#4)
    (hx : g s.flags (truncSize f.size (readReg d s)) (f.source (memoryValue r (sizeBytes f.access) s)) = x) :
    ∃ s₁, ReadOnly (isInline md r s) s s₁ ∧ aluMem f g word d md r s =
      pcResult f.size x (updateAddress md r (sizeBytes f.access) (operandAddress r s) s₁) := by
  have hn : sizeBytes f.access ≤ 2 ∨ sizeBytes f.access = 4 := by cases f.access <;> simp [sizeBytes]
  obtain ⟨s₁, hread, hload⟩ := loadOperand_ready { word := word, endPc := endAddress md r (sizeBytes f.access) s } hn h
  refine ⟨s₁, hread, ?_⟩
  have hd₁ : (updateAddress md r (sizeBytes f.access) (operandAddress r s) s₁).delay = none :=
    (updateAddress_delay ..).trans ((readOnly_delay hread).trans hd)
  simp only [aluMem, href, hload, Act.finish, hdest, hx]
  exact writeBack_pcResult hw hwin x _ hd₁

/-- The 3-operand forms have no other ground to stop than PC read beside in-line data. -/
theorem memoryRefusal_threeOp_none {f : AluForm} (ht : f.threeOp = true) (hpc : f.pcDest = true) {d : RegNo} {md : Bool}
    {r : RegNo} {s : State} (hd : s.delay = none) (hinline : d = 15#4 → isInline md r s = false) :
    memoryRefusal f d md r s = none := by
  have hread : (f.dest.reads && d == 15#4 && isInline md r s) = false := by
    by_cases hdest : d = 15#4
    · simp [hinline hdest]
    · simp [hdest]
  simp [memoryRefusal, ht, hpc, hread, destRefusal_noSlot hd (f := f) fun _ hno => absurd hpc (by simp [hno])]

/-- The moves have no other ground to stop than an Operand1 that differs. -/
theorem memoryRefusal_move_none {f : AluForm} (hr : f.dest.reads = false) (hpc : f.pcDest = true)
    {d : RegNo} {md : Bool} {r : RegNo} {s : State} (hd : s.delay = none)
    (hdiffers : s.prefixAddr.isSome = true → md = false → r = d) : memoryRefusal f d md r s = none := by
  have hfirst : (f.dest.writes && !f.threeOp && s.prefixAddr.isSome && !md && r != d) = false := by
    cases ha : s.prefixAddr.isSome with
    | false => simp
    | true =>
      cases md with
      | true => simp
      | false => simp [hdiffers ha rfl]
  simp only [memoryRefusal, hfirst, hpc, hr, Bool.not_true, Bool.and_false, Bool.false_and, Bool.false_eq_true, if_false]
  exact destRefusal_noSlot hd fun _ hno => absurd hpc (by simp [hno])

theorem calcAdd_dword_eq_sumOf (f : Flags) (a b : Word) : calcAdd .dword f a b = sumOf .dword f a b :=
  calcAdd_eq_sumOf .dword f a b

theorem calcSub_dword_eq_differenceOf (f : Flags) (a b : Word) : calcSub .dword f a b = differenceOf .dword f a b :=
  calcSub_eq_differenceOf .dword f a b

section
variable (z : Size) (f : Flags) (a v : Word)

/-- The source of a form with zero extension, in the words of the claims. -/
theorem calcAdd_unsigned : calcAdd .dword f a (truncSize z v) = sumOf .dword f a (zeroExtended z v) := by
  rw [zeroExtended_eq_truncSize, calcAdd_dword_eq_sumOf]

theorem calcAdd_signed : calcAdd .dword f a (sextSize z v) = sumOf .dword f a (signExtended z v) := by
  rw [signExtended_eq_sextSize, calcAdd_dword_eq_sumOf]

theorem calcSub_unsigned : calcSub .dword f a (truncSize z v) = differenceOf .dword f a (zeroExtended z v) := by
  rw [zeroExtended_eq_truncSize, calcSub_dword_eq_differenceOf]

theorem calcSub_signed : calcSub .dword f a (sextSize z v) = differenceOf .dword f a (signExtended z v) := by
  rw [signExtended_eq_sextSize, calcSub_dword_eq_differenceOf]

theorem calcMove_signed : calcMove .dword f a (sextSize z v) = movedOf .dword f (signExtended z v) := by
  rw [signExtended_eq_sextSize, calcMove_dword_eq_movedOf]

end

theorem calcAsr_truncSize (m : Size) (f : Flags) (a b : Word) :
    calcAsr m f (truncSize m a) (truncSize m b) = signedShiftOf m f a (b.toNat % 64) := by
  rw [calcAsr_eq_signedShiftOf, shiftCount_truncSize]

theorem calcAsr_quick (f : Flags) (a : Word) (c : BitVec 5) :
    calcAsr .dword f a (c.setWidth 32) = signedShiftOf .dword f a c.toNat := by
  have hc : shiftCount (c.setWidth 32) = c.toNat := by
    have := c.isLt
    rw [shiftCount_eq, BitVec.toNat_setWidth]
    omega
  rw [← hc]
  exact calcAsr_eq_signedShiftOf .dword f a _

/-- Settles O39: each calculation is the one of the claim, and its result goes to PC. -/
theorem pcDestinationRegisters : Obligations.PcDestinationRegisters := by
  unfold Obligations.PcDestinationRegisters
  intro s r j c ha hd
  have quick {g : Calc} {src : Word} {x : Word × Flags} (hx : g s.flags (pcPlus2 s) src = x) :
      aluCore (formUpdate .dword) g 15#4 src s = pcResult .dword x s :=
    aluCore_pcResult (f := formUpdate .dword) rfl rfl rfl ha hd hx
  have move {src : Word} {x : Word × Flags} (hx : calcMove .dword s.flags (pcPlus2 s) src = x) :
      aluCore (formMove .dword) (calcMove .dword) 15#4 src s = pcResult .dword x s :=
    aluCore_pcResult (f := formMove .dword) rfl rfl rfl ha hd hx
  have reg (f : AluForm) (hw : f.dest.writes = true) (hpc : f.pcDest = true) (hwin : f.window = false) {g : Calc}
      {x : Word × Flags} (hx : g s.flags (truncSize f.size (pcPlus2 s)) (f.source (readReg r s)) = x) :
      aluReg f g 15#4 r s = pcResult f.size x s :=
    aluCore_pcResult hw hpc hwin ha hd hx
  exact ⟨quick (calcAdd_dword_eq_sumOf ..),
    quick (calcSub_dword_eq_differenceOf ..),
    move (calcMove_dword_eq_movedOf ..),
    quick (calcAnd_eq_andOf .dword ..),
    quick (calcOr_eq_orOf .dword ..),
    quick (calcAsr_quick ..),
    reg (formSized .byte) rfl rfl rfl (calcAdd_eq_sumOf .byte ..),
    reg (formSized .word) rfl rfl rfl (calcAdd_eq_sumOf .word ..),
    reg (formSized .dword) rfl rfl rfl (calcAdd_eq_sumOf .dword ..),
    reg (formUnsigned .byte) rfl rfl rfl (calcAdd_unsigned .byte ..),
    reg (formUnsigned .word) rfl rfl rfl (calcAdd_unsigned .word ..),
    reg (formSigned .byte) rfl rfl rfl (calcAdd_signed .byte ..),
    reg (formSigned .word) rfl rfl rfl (calcAdd_signed .word ..),
    reg (formSized .byte) rfl rfl rfl (calcSub_eq_differenceOf .byte ..),
    reg (formSized .word) rfl rfl rfl (calcSub_eq_differenceOf .word ..),
    reg (formSized .dword) rfl rfl rfl (calcSub_eq_differenceOf .dword ..),
    reg (formUnsigned .byte) rfl rfl rfl (calcSub_unsigned .byte ..),
    reg (formUnsigned .word) rfl rfl rfl (calcSub_unsigned .word ..),
    reg (formSigned .byte) rfl rfl rfl (calcSub_signed .byte ..),
    reg (formSigned .word) rfl rfl rfl (calcSub_signed .word ..),
    reg (formSized .byte) rfl rfl rfl (calcAnd_eq_andOf .byte ..),
    reg (formSized .word) rfl rfl rfl (calcAnd_eq_andOf .word ..),
    reg (formSized .dword) rfl rfl rfl (calcAnd_eq_andOf .dword ..),
    reg (formSized .byte) rfl rfl rfl (calcOr_eq_orOf .byte ..),
    reg (formSized .word) rfl rfl rfl (calcOr_eq_orOf .word ..),
    reg (formSized .dword) rfl rfl rfl (calcOr_eq_orOf .dword ..),
    reg (formUpdate .byte) rfl rfl rfl (calcAsr_truncSize .byte ..),
    reg (formUpdate .word) rfl rfl rfl (calcAsr_truncSize .word ..),
    reg (formUpdate .dword) rfl rfl rfl (calcAsr_truncSize .dword ..),
    reg (formMove .byte) rfl rfl rfl (calcMove_truncSize .byte ..),
    reg (formMove .word) rfl rfl rfl (calcMove_truncSize .word ..),
    reg (formMove .dword) rfl rfl rfl (calcMove_truncSize .dword ..),
    reg (formMoveUnsigned .byte) rfl rfl rfl (calcMovu_eq_movedOf (z := .byte) (by decide) ..),
    reg (formMoveUnsigned .word) rfl rfl rfl (calcMovu_eq_movedOf (z := .word) (by decide) ..),
    reg (formMoveSigned .byte) rfl rfl rfl (calcMove_signed .byte ..),
    reg (formMoveSigned .word) rfl rfl rfl (calcMove_signed .word ..),
    reg (formMove .dword) rfl rfl rfl (calcAbs_eq_absOf ..),
    reg (formMove .dword) rfl rfl rfl (calcLz_eq_plainResult ..),
    reg (formUpdate .dword) rfl rfl rfl (calcXor_eq_plainResult ..)⟩

/-- Settles O45: the operand is read, its address register updated, and the result goes to PC. -/
theorem pcDestinationMemory : Obligations.PcDestinationMemory := by
  unfold Obligations.PcDestinationMemory
  refine ⟨fun s d r md hd hdest hinline => ?_, fun s r md hd hdiffers => ?_, fun s hd h => ?_⟩
  · have alu (f : AluForm) (hw : f.dest.writes = true) (ht : f.threeOp = true) (hpc : f.pcDest = true)
        (hwin : f.window = false) {g : Calc} (word : Half) {x : Word × Flags}
        (h : OperandReady md r (sizeBytes f.access) s)
        (hx : g s.flags (truncSize f.size (readReg d s)) (f.source (memoryValue r (sizeBytes f.access) s)) = x) :=
      aluMem_pcResult hw hwin word h hd (memoryRefusal_threeOp_none ht hpc hd hinline)
        (by rw [← hdest, memoryDest, ht]; rfl) hx
    refine ⟨
      fun h => ⟨alu (formSized .byte) rfl rfl rfl rfl _ h (calcAdd_eq_sumOf .byte ..),
        alu (formUnsigned .byte) rfl rfl rfl rfl _ h (calcAdd_unsigned .byte ..),
        alu (formSigned .byte) rfl rfl rfl rfl _ h (calcAdd_signed .byte ..),
        alu (formSized .byte) rfl rfl rfl rfl _ h (calcSub_eq_differenceOf .byte ..),
        alu (formUnsigned .byte) rfl rfl rfl rfl _ h (calcSub_unsigned .byte ..),
        alu (formSigned .byte) rfl rfl rfl rfl _ h (calcSub_signed .byte ..),
        alu (formSized .byte) rfl rfl rfl rfl _ h (calcAnd_eq_andOf .byte ..),
        alu (formSized .byte) rfl rfl rfl rfl _ h (calcOr_eq_orOf .byte ..)⟩,
      fun h => ⟨alu (formSized .word) rfl rfl rfl rfl _ h (calcAdd_eq_sumOf .word ..),
        alu (formUnsigned .word) rfl rfl rfl rfl _ h (calcAdd_unsigned .word ..),
        alu (formSigned .word) rfl rfl rfl rfl _ h (calcAdd_signed .word ..),
        alu (formSized .word) rfl rfl rfl rfl _ h (calcSub_eq_differenceOf .word ..),
        alu (formUnsigned .word) rfl rfl rfl rfl _ h (calcSub_unsigned .word ..),
        alu (formSigned .word) rfl rfl rfl rfl _ h (calcSub_signed .word ..),
        alu (formSized .word) rfl rfl rfl rfl _ h (calcAnd_eq_andOf .word ..),
        alu (formSized .word) rfl rfl rfl rfl _ h (calcOr_eq_orOf .word ..)⟩,
      fun h => ⟨alu (formSized .dword) rfl rfl rfl rfl _ h (calcAdd_eq_sumOf .dword ..),
        alu (formSized .dword) rfl rfl rfl rfl _ h (calcSub_eq_differenceOf .dword ..),
        alu (formSized .dword) rfl rfl rfl rfl _ h (calcAnd_eq_andOf .dword ..),
        alu (formSized .dword) rfl rfl rfl rfl _ h (calcOr_eq_orOf .dword ..)⟩⟩
  · have move (f : AluForm) (hw : f.dest.writes = true) (hr : f.dest.reads = false) (ht : f.threeOp = false)
        (hpc : f.pcDest = true) (hwin : f.window = false) {g : Calc} (word : Half) {x : Word × Flags}
        (h : OperandReady md r (sizeBytes f.access) s)
        (hx : g s.flags (truncSize f.size (readReg 15#4 s)) (f.source (memoryValue r (sizeBytes f.access) s)) = x) :=
      aluMem_pcResult hw hwin word h hd (memoryRefusal_move_none hr hpc hd hdiffers)
        (by rw [memoryDest, ht]; rfl) hx
    refine ⟨
      fun h => ⟨move (formMove .byte) rfl rfl rfl rfl rfl _ h (calcMove_truncSize .byte ..),
        move (formMoveUnsigned .byte) rfl rfl rfl rfl rfl _ h (calcMovu_eq_movedOf (z := .byte) (by decide) ..),
        move (formMoveSigned .byte) rfl rfl rfl rfl rfl _ h (calcMove_signed .byte ..)⟩,
      fun h => ⟨move (formMove .word) rfl rfl rfl rfl rfl _ h (calcMove_truncSize .word ..),
        move (formMoveUnsigned .word) rfl rfl rfl rfl rfl _ h (calcMovu_eq_movedOf (z := .word) (by decide) ..),
        move (formMoveSigned .word) rfl rfl rfl rfl rfl _ h (calcMove_signed .word ..)⟩,
      fun h => move (formMove .dword) rfl rfl rfl rfl rfl _ h (calcMove_truncSize .dword ..)⟩
  · exact aluMem_pcResult (f := formMove .dword) rfl rfl (encode (.popReg 15#4)) h hd
      (memoryRefusal_move_none rfl rfl hd fun _ hmd => by cases hmd) rfl (calcMove_dword_eq_movedOf ..)

end Sys2Proof.Proofs
end

section
/-! O1: the law of each instruction, read off for all of them. -/

namespace Sys2Proof.Proofs

-- Declarations are checked one after another: many at once need more threads than the memory limit of the check allows.
set_option Elab.async false

open Sys2Proof.Machine Sys2Proof.Laws

/-! ## O1: decoding what was encoded -/

/-- The two bytes of a word, low byte first, are read as that word (20_memory.md R72, 30_encoding.md R131). -/
theorem decodeBytes_bytes_of_word (w : Half) (rest : List Byte) :
    decodeBytes (w.setWidth 8 :: w.extractLsb' 8 8 :: rest) = .ok (decodeWord w, rest) := by
  have hw : w.extractLsb' 8 8 ++ w.setWidth 8 = w := by
    rw [BitVec.setWidth_eq_extractLsb' (by decide),
      BitVec.extractLsb'_append_extractLsb'_eq_extractLsb' (show 8 = 0 + 8 from rfl)]
    exact BitVec.extractLsb'_eq_self
  rw [decodeBytes, hw]

/-- Each constructor has its law (30_encoding.md R139). -/
theorem decodeWord_encode : ∀ i : Instr, EncodeRoundTrip.Statement i
  | .bcc .. => EncodeRoundTrip.bcc _ _
  | .bdapByte .. => EncodeRoundTrip.bdapByte _ _
  | .addq .. => EncodeRoundTrip.addq _ _
  | .moveq .. => EncodeRoundTrip.moveq _ _
  | .subq .. => EncodeRoundTrip.subq _ _
  | .cmpq .. => EncodeRoundTrip.cmpq _ _
  | .andq .. => EncodeRoundTrip.andq _ _
  | .orq .. => EncodeRoundTrip.orq _ _
  | .btstq .. => EncodeRoundTrip.btstq _ _
  | .asrq .. => EncodeRoundTrip.asrq _ _
  | .lslq .. => EncodeRoundTrip.lslq _ _
  | .lsrq .. => EncodeRoundTrip.lsrq _ _
  | .adduBReg .. => EncodeRoundTrip.adduBReg _ _
  | .adduBMem .. => EncodeRoundTrip.adduBMem _ _ _
  | .adduWReg .. => EncodeRoundTrip.adduWReg _ _
  | .adduWMem .. => EncodeRoundTrip.adduWMem _ _ _
  | .addsBReg .. => EncodeRoundTrip.addsBReg _ _
  | .addsBMem .. => EncodeRoundTrip.addsBMem _ _ _
  | .addsWReg .. => EncodeRoundTrip.addsWReg _ _
  | .addsWMem .. => EncodeRoundTrip.addsWMem _ _ _
  | .movuBReg .. => EncodeRoundTrip.movuBReg _ _
  | .movuBMem .. => EncodeRoundTrip.movuBMem _ _ _
  | .movuWReg .. => EncodeRoundTrip.movuWReg _ _
  | .movuWMem .. => EncodeRoundTrip.movuWMem _ _ _
  | .movsBReg .. => EncodeRoundTrip.movsBReg _ _
  | .movsBMem .. => EncodeRoundTrip.movsBMem _ _ _
  | .movsWReg .. => EncodeRoundTrip.movsWReg _ _
  | .movsWMem .. => EncodeRoundTrip.movsWMem _ _ _
  | .subuBReg .. => EncodeRoundTrip.subuBReg _ _
  | .subuBMem .. => EncodeRoundTrip.subuBMem _ _ _
  | .subuWReg .. => EncodeRoundTrip.subuWReg _ _
  | .subuWMem .. => EncodeRoundTrip.subuWMem _ _ _
  | .subsBReg .. => EncodeRoundTrip.subsBReg _ _
  | .subsBMem .. => EncodeRoundTrip.subsBMem _ _ _
  | .subsWReg .. => EncodeRoundTrip.subsWReg _ _
  | .subsWMem .. => EncodeRoundTrip.subsWMem _ _ _
  | .cmpuBMem .. => EncodeRoundTrip.cmpuBMem _ _ _
  | .cmpuWMem .. => EncodeRoundTrip.cmpuWMem _ _ _
  | .cmpsBMem .. => EncodeRoundTrip.cmpsBMem _ _ _
  | .cmpsWMem .. => EncodeRoundTrip.cmpsWMem _ _ _
  | .lslBReg .. => EncodeRoundTrip.lslBReg _ _
  | .lslWReg .. => EncodeRoundTrip.lslWReg _ _
  | .lslDReg .. => EncodeRoundTrip.lslDReg _ _
  | .negBReg .. => EncodeRoundTrip.negBReg _ _
  | .negWReg .. => EncodeRoundTrip.negWReg _ _
  | .negDReg .. => EncodeRoundTrip.negDReg _ _
  | .asrBReg .. => EncodeRoundTrip.asrBReg _ _
  | .asrWReg .. => EncodeRoundTrip.asrWReg _ _
  | .asrDReg .. => EncodeRoundTrip.asrDReg _ _
  | .lsrBReg .. => EncodeRoundTrip.lsrBReg _ _
  | .lsrWReg .. => EncodeRoundTrip.lsrWReg _ _
  | .lsrDReg .. => EncodeRoundTrip.lsrDReg _ _
  | .boundBReg .. => EncodeRoundTrip.boundBReg _ _
  | .boundBMem .. => EncodeRoundTrip.boundBMem _ _ _
  | .boundWReg .. => EncodeRoundTrip.boundWReg _ _
  | .boundWMem .. => EncodeRoundTrip.boundWMem _ _ _
  | .boundDReg .. => EncodeRoundTrip.boundDReg _ _
  | .boundDMem .. => EncodeRoundTrip.boundDMem _ _ _
  | .addBReg .. => EncodeRoundTrip.addBReg _ _
  | .addBMem .. => EncodeRoundTrip.addBMem _ _ _
  | .addWReg .. => EncodeRoundTrip.addWReg _ _
  | .addWMem .. => EncodeRoundTrip.addWMem _ _ _
  | .addDReg .. => EncodeRoundTrip.addDReg _ _
  | .addDMem .. => EncodeRoundTrip.addDMem _ _ _
  | .moveBReg .. => EncodeRoundTrip.moveBReg _ _
  | .moveBMem .. => EncodeRoundTrip.moveBMem _ _ _
  | .moveWReg .. => EncodeRoundTrip.moveWReg _ _
  | .moveWMem .. => EncodeRoundTrip.moveWMem _ _ _
  | .moveDReg .. => EncodeRoundTrip.moveDReg _ _
  | .moveDMem .. => EncodeRoundTrip.moveDMem _ _ _
  | .subBReg .. => EncodeRoundTrip.subBReg _ _
  | .subBMem .. => EncodeRoundTrip.subBMem _ _ _
  | .subWReg .. => EncodeRoundTrip.subWReg _ _
  | .subWMem .. => EncodeRoundTrip.subWMem _ _ _
  | .subDReg .. => EncodeRoundTrip.subDReg _ _
  | .subDMem .. => EncodeRoundTrip.subDMem _ _ _
  | .cmpBReg .. => EncodeRoundTrip.cmpBReg _ _
  | .cmpBMem .. => EncodeRoundTrip.cmpBMem _ _ _
  | .cmpWReg .. => EncodeRoundTrip.cmpWReg _ _
  | .cmpWMem .. => EncodeRoundTrip.cmpWMem _ _ _
  | .cmpDReg .. => EncodeRoundTrip.cmpDReg _ _
  | .cmpDMem .. => EncodeRoundTrip.cmpDMem _ _ _
  | .andBReg .. => EncodeRoundTrip.andBReg _ _
  | .andBMem .. => EncodeRoundTrip.andBMem _ _ _
  | .andWReg .. => EncodeRoundTrip.andWReg _ _
  | .andWMem .. => EncodeRoundTrip.andWMem _ _ _
  | .andDReg .. => EncodeRoundTrip.andDReg _ _
  | .andDMem .. => EncodeRoundTrip.andDMem _ _ _
  | .orBReg .. => EncodeRoundTrip.orBReg _ _
  | .orBMem .. => EncodeRoundTrip.orBMem _ _ _
  | .orWReg .. => EncodeRoundTrip.orWReg _ _
  | .orWMem .. => EncodeRoundTrip.orWMem _ _ _
  | .orDReg .. => EncodeRoundTrip.orDReg _ _
  | .orDMem .. => EncodeRoundTrip.orDMem _ _ _
  | .addiB .. => EncodeRoundTrip.addiB _ _
  | .addiW .. => EncodeRoundTrip.addiW _ _
  | .addiD .. => EncodeRoundTrip.addiD _ _
  | .biapB .. => EncodeRoundTrip.biapB _ _
  | .biapW .. => EncodeRoundTrip.biapW _ _
  | .biapD .. => EncodeRoundTrip.biapD _ _
  | .nop => EncodeRoundTrip.nop
  | .btst .. => EncodeRoundTrip.btst _ _
  | .scc .. => EncodeRoundTrip.scc _ _
  | .setf .. => EncodeRoundTrip.setf _
  | .clearf .. => EncodeRoundTrip.clearf _
  | .moveToSpecial .. => EncodeRoundTrip.moveToSpecial _ _
  | .moveFromSpecial .. => EncodeRoundTrip.moveFromSpecial _ _
  | .abs .. => EncodeRoundTrip.abs _ _
  | .dstep .. => EncodeRoundTrip.dstep _ _
  | .lz .. => EncodeRoundTrip.lz _ _
  | .swap .. => EncodeRoundTrip.swap _ _
  | .xor .. => EncodeRoundTrip.xor _ _
  | .mstep .. => EncodeRoundTrip.mstep _ _
  | .mulsB .. => EncodeRoundTrip.mulsB _ _
  | .mulsW .. => EncodeRoundTrip.mulsW _ _
  | .mulsD .. => EncodeRoundTrip.mulsD _ _
  | .muluB .. => EncodeRoundTrip.muluB _ _
  | .muluW .. => EncodeRoundTrip.muluW _ _
  | .muluD .. => EncodeRoundTrip.muluD _ _
  | .bdapB .. => EncodeRoundTrip.bdapB _ _ _
  | .bdapW .. => EncodeRoundTrip.bdapW _ _ _
  | .bdapD .. => EncodeRoundTrip.bdapD _ _ _
  | .testBMem .. => EncodeRoundTrip.testBMem _ _
  | .testWMem .. => EncodeRoundTrip.testWMem _ _
  | .testDMem .. => EncodeRoundTrip.testDMem _ _
  | .moveBStore .. => EncodeRoundTrip.moveBStore _ _ _
  | .moveWStore .. => EncodeRoundTrip.moveWStore _ _ _
  | .moveDStore .. => EncodeRoundTrip.moveDStore _ _ _
  | .jump .. => EncodeRoundTrip.jump _ _
  | .jumpReg .. => EncodeRoundTrip.jumpReg _
  | .jirc .. => EncodeRoundTrip.jirc _ _
  | .jircReg .. => EncodeRoundTrip.jircReg _
  | .jsrc .. => EncodeRoundTrip.jsrc _ _
  | .jsrcReg .. => EncodeRoundTrip.jsrcReg _
  | .jbrc .. => EncodeRoundTrip.jbrc _ _
  | .jbrcReg .. => EncodeRoundTrip.jbrcReg _
  | .jmpu .. => EncodeRoundTrip.jmpu _ _
  | .jir .. => EncodeRoundTrip.jir _ _
  | .jirReg .. => EncodeRoundTrip.jirReg _
  | .jsr .. => EncodeRoundTrip.jsr _ _
  | .jsrReg .. => EncodeRoundTrip.jsrReg _
  | .breakN .. => EncodeRoundTrip.breakN _
  | .dip .. => EncodeRoundTrip.dip _ _
  | .bcc16 .. => EncodeRoundTrip.bcc16 _
  | .moveToSpecialMem .. => EncodeRoundTrip.moveToSpecialMem _ _ _
  | .moveFromSpecialMem .. => EncodeRoundTrip.moveFromSpecialMem _ _ _
  | .rbf .. => EncodeRoundTrip.rbf _ _
  | .sbfs .. => EncodeRoundTrip.sbfs _ _
  | .movemLoad .. => EncodeRoundTrip.movemLoad _ _ _
  | .movemStore .. => EncodeRoundTrip.movemStore _ _ _
  | .clearBReg .. => EncodeRoundTrip.clearBReg _
  | .clearBMem .. => EncodeRoundTrip.clearBMem _ _
  | .clearWReg .. => EncodeRoundTrip.clearWReg _
  | .clearWMem .. => EncodeRoundTrip.clearWMem _ _
  | .clearDReg .. => EncodeRoundTrip.clearDReg _
  | .clearDMem .. => EncodeRoundTrip.clearDMem _ _
  | .ret => EncodeRoundTrip.ret
  | .retb => EncodeRoundTrip.retb
  | .reti => EncodeRoundTrip.reti
  | .notReg .. => EncodeRoundTrip.notReg _
  | .ax => EncodeRoundTrip.ax
  | .ei => EncodeRoundTrip.ei
  | .di => EncodeRoundTrip.di
  | .popReg .. => EncodeRoundTrip.popReg _
  | .popSpecial .. => EncodeRoundTrip.popSpecial _
  | .pushReg .. => EncodeRoundTrip.pushReg _
  | .pushSpecial .. => EncodeRoundTrip.pushSpecial _
  | .testBReg .. => EncodeRoundTrip.testBReg _
  | .testWReg .. => EncodeRoundTrip.testWReg _
  | .testDReg .. => EncodeRoundTrip.testDReg _
  | .reserved .. => EncodeRoundTrip.reserved _
  | .unlisted .. => EncodeRoundTrip.unlisted _
  | .tableNote => EncodeRoundTrip.tableNote

/-- Settles O1: the two bytes are the word, and the word decodes to its instruction. -/
theorem decodeOfEncode : Obligations.DecodeOfEncode := by
  unfold Obligations.DecodeOfEncode
  intro i rest hi
  rw [decodeBytes_bytes_of_word, decodeWord_encode i hi]

end Sys2Proof.Proofs
end

section
/-! O19, O20 and O21: translation, in the words of the claims. The segment and the base field first, then the sets whose
entry hits, then what the lookup answers for no hit, one hit and several. -/

namespace Sys2Proof.Proofs

-- Declarations are checked one after another: many at once need more threads than the memory limit of the check allows.
set_option Elab.async false

open Sys2Proof.Machine Sys2Proof.Laws

/-! ## Fields of an address, as numbers -/

theorem toNat_append_eq_add {m n : Nat} (x : BitVec m) (y : BitVec n) : (x ++ y).toNat = 2 ^ n * x.toNat + y.toNat := by
  rw [BitVec.toNat_append, ← Nat.shiftLeft_add_eq_or_of_lt y.isLt, Nat.shiftLeft_eq, Nat.mul_comm]

theorem toNat_extractLsb'_eq_div_mod {w : Nat} (x : BitVec w) (i n : Nat) :
    (x.extractLsb' i n).toNat = x.toNat / 2 ^ i % 2 ^ n := by
  rw [BitVec.extractLsb'_toNat, Nat.shiftRight_eq_div_pow]

/-- Bits 31 to 28, the segment (20_memory.md R95). -/
theorem toNat_segment (va : Word) : (va.extractLsb' 28 4).toNat = va.toNat / 2 ^ 28 := by
  rw [toNat_extractLsb'_eq_div_mod]
  omega

theorem toNat_tlbLocation (va : Word) : (tlbLocation va).toNat = va.toNat / 2 ^ 13 % 16 :=
  toNat_extractLsb'_eq_div_mod va 13 4

theorem toNat_tlbIndex (set : BitVec 2) (loc : BitVec 4) : (tlbIndex set loc).toNat = 16 * set.toNat + loc.toNat :=
  toNat_append_eq_add set loc

/-- The index of an entry, in the words of the claims (10_state.md R59). -/
theorem tlbIndex_location (set : BitVec 2) (va : Word) :
    tlbIndex set (tlbLocation va) = BitVec.ofNat 6 (16 * set.toNat + va.toNat / 2 ^ 13 % 16) := by
  rw [← toNat_tlbLocation, ← toNat_tlbIndex, BitVec.ofNat_toNat, BitVec.setWidth_eq]

/-! ## O19: linear-mapped segments -/

theorem linearMapped_iff (s : State) (va : Word) : linearMapped s.mmu s.mode va = true ↔ Linear s va := by
  rw [linearMapped, toNat_segment, Bool.and_eq_true, beq_iff_eq, Linear]

/-- Sixteen fields of four bits: the lower eight stand in R_MMU_KBASE_LO, the others in R_MMU_KBASE_HI
(10_state.md R56). -/
theorem toNat_segmentBase (s : State) (seg : BitVec 4) : (segmentBase s.mmu seg).toNat = baseField s seg.toNat := by
  have hseg := seg.isLt
  rw [segmentBase, toNat_extractLsb'_eq_div_mod, toNat_append_eq_add, baseField, show 2 ^ 4 = 16 from rfl]
  generalize seg.toNat = k at hseg ⊢
  split
  · next hlow =>
    have hpow : 2 ^ 32 = 2 ^ (4 * k) * (16 * 2 ^ (28 - 4 * k)) := by
      rw [← Nat.pow_add 2 4, ← Nat.pow_add]
      congr 1
      omega
    rw [hpow, Nat.mul_assoc, Nat.mul_add_div (Nat.two_pow_pos _), Nat.mul_assoc, Nat.mul_add_mod]
  · next hhigh =>
    rw [show 4 * k = 32 + 4 * (k - 8) by omega, Nat.pow_add, ← Nat.div_div_eq_div_mul,
      Nat.mul_add_div (Nat.two_pow_pos _), Nat.div_eq_of_lt s.mmu.kbaseLo.isLt, Nat.add_zero]

/-- A base field has four bits. -/
theorem baseField_lt (s : State) (seg : Nat) : baseField s seg < 16 := by
  unfold baseField
  split <;> exact Nat.mod_lt _ (by decide)

theorem toNat_linearPhysical (s : State) (va : Word) :
    (linearPhysical s va).toNat = 2 ^ 28 * baseField s (va.toNat / 2 ^ 28) + va.toNat % 2 ^ 28 := by
  have := baseField_lt s (va.toNat / 2 ^ 28)
  rw [linearPhysical, BitVec.toNat_ofNat]
  omega

/-- The base field above the 28 low bits of the address (20_memory.md R96). -/
theorem linearAddress_eq_linearPhysical (s : State) (va : Word) : linearAddress s.mmu va = linearPhysical s va := by
  apply BitVec.eq_of_toNat_eq
  rw [linearAddress, toNat_append_eq_add, toNat_segmentBase, toNat_segment, toNat_extractLsb'_eq_div_mod,
    toNat_linearPhysical, Nat.pow_zero, Nat.div_one]

theorem translate_linear {s : State} {va : Word} (he : s.mmu.enable = true) (hl : Linear s va) (write : Bool) :
    Machine.translate va write s = .ok (linearPhysical s va) s := by
  rw [Machine.translate, if_pos he, if_pos ((linearMapped_iff s va).2 hl), linearAddress_eq_linearPhysical]

/-- Settles O19. -/
theorem linearMapping : Obligations.LinearMapping := by
  unfold Obligations.LinearMapping
  exact fun s va write he hl => ⟨translate_linear he hl write, toNat_linearPhysical s va⟩

/-! ## The sets whose entry hits (20_memory.md R97, R98) -/

theorem tlbEntry_eq_entryAt (s : State) (va : Word) (k : Fin 4) :
    tlbEntry s.mmu (tlbIndex (BitVec.ofFin k) (tlbLocation va)) = entryAt s va k := by
  have hindex : (tlbIndex (BitVec.ofFin k) (tlbLocation va)).toNat = 16 * k.val + va.toNat / 2 ^ 13 % 16 := by
    rw [toNat_tlbIndex, toNat_tlbLocation]
    rfl
  simp only [tlbEntry, entryAt, hindex]

theorem entryHits_iff (s : State) (va : Word) (k : Fin 4) : entryHits s.mmu va (entryAt s va k) = true ↔ TlbHit s va k := by
  have hvpn : va.extractLsb' 17 15 = (entryAt s va k).vpn ↔ (entryAt s va k).vpn.toNat = va.toNat / 2 ^ 17 := by
    rw [← BitVec.toNat_inj, toNat_extractLsb'_eq_div_mod]
    omega
  simp only [entryHits, TlbHit, Bool.and_eq_true, Bool.or_eq_true, beq_iff_eq, hvpn, and_assoc, @eq_comm _ s.mmu.context]

theorem mem_hittingSets {s : State} {va : Word} {k : Fin 4} : BitVec.ofFin k ∈ hittingSets s.mmu va ↔ TlbHit s va k := by
  have hall : ∀ set : BitVec 2, set ∈ [0#2, 1#2, 2#2, 3#2] := by decide
  rw [hittingSets, List.mem_filter, tlbEntry_eq_entryAt, entryHits_iff]
  exact and_iff_right (hall _)

theorem hittingSets_nodup (m : Mmu) (va : Word) : (hittingSets m va).Nodup :=
  List.Nodup.filter _ (by decide)

theorem hittingSets_eq_nil {s : State} {va : Word} (h : ∀ k, ¬ TlbHit s va k) : hittingSets s.mmu va = [] :=
  List.eq_nil_iff_forall_not_mem.2 fun ⟨k⟩ hk => h k (mem_hittingSets.1 hk)

theorem hittingSets_eq_singleton {s : State} {va : Word} {k : Fin 4} (hk : TlbHit s va k) (h : ∀ j, TlbHit s va j → j = k) :
    hittingSets s.mmu va = [BitVec.ofFin k] := by
  refine List.perm_singleton.1 ((List.perm_ext_iff_of_nodup (hittingSets_nodup _ _) (List.nodup_singleton _)).2 ?_)
  intro ⟨j⟩
  rw [mem_hittingSets, List.mem_singleton]
  exact ⟨fun hj => congrArg BitVec.ofFin (h j hj), fun hj => BitVec.ofFin.inj hj ▸ hk⟩

theorem hittingSets_two {s : State} {va : Word} {j k : Fin 4} (hj : TlbHit s va j) (hk : TlbHit s va k) (h : j ≠ k) :
    ∃ a b rest, hittingSets s.mmu va = a :: b :: rest := by
  have hj' := mem_hittingSets.2 hj
  have hk' := mem_hittingSets.2 hk
  match hsets : hittingSets s.mmu va with
  | [] => simp [hsets] at hj'
  | [a] =>
    rw [hsets, List.mem_singleton] at hj' hk'
    exact absurd (BitVec.ofFin.inj (hj'.trans hk'.symm)) h
  | a :: b :: rest => exact ⟨a, b, rest, rfl⟩

/-! ## What the lookup answers (20_memory.md R99 to R104) -/

theorem causeOf_eq_causeFor (s : State) (va : Word) (write miss inv acc we : Bool) :
    causeOf s.mmu va write miss inv acc we = causeFor s va write miss inv acc we := by
  have hvpn : va.extractLsb' 13 19 = BitVec.ofNat 19 (va.toNat / 2 ^ 13) := by
    apply BitVec.eq_of_toNat_eq
    rw [toNat_extractLsb'_eq_div_mod, BitVec.toNat_ofNat]
  rw [causeOf, causeFor, hvpn]

section
variable {s : State} {va : Word}

theorem lookup_noHit (h : ∀ k, ¬ TlbHit s va k) (write : Bool) :
    lookup s.mmu s.mode va write = .miss (causeFor s va write true false false false) := by
  simp only [lookup, hittingSets_eq_nil h, causeOf_eq_causeFor]

theorem lookup_severalHits {j k : Fin 4} (hj : TlbHit s va j) (hk : TlbHit s va k) (h : j ≠ k) (write : Bool) :
    lookup s.mmu s.mode va write = .excp (causeFor s va write false false false false) none := by
  obtain ⟨a, b, rest, hsets⟩ := hittingSets_two hj hk h
  simp only [lookup, hsets, causeOf_eq_causeFor]

/-- One hit: the three conditions decide. -/
theorem lookup_oneHit {k : Fin 4} (hk : TlbHit s va k) (h : ∀ j, TlbHit s va j → j = k) {write inv acc we : Bool}
    (hwe : we = (write && !(entryAt s va k).we && s.mmu.weExcp))
    (hacc : acc = (decide (s.mode = .user) && (entryAt s va k).kernel && s.mmu.accExcp))
    (hinv : inv = (!(entryAt s va k).valid && s.mmu.invExcp)) :
    lookup s.mmu s.mode va write =
      if we || acc || inv then
        .excp (causeFor s va write false inv acc we) (some (BitVec.ofNat 6 (16 * k.val + va.toNat / 2 ^ 13 % 16)))
      else .hit ((entryAt s va k).pfn ++ va.extractLsb' 0 13) := by
  have hindex := tlbIndex_location (BitVec.ofFin k) va
  have hentry := tlbEntry_eq_entryAt s va k
  rw [hindex] at hentry
  subst hwe hacc hinv
  simp only [lookup, hittingSets_eq_singleton hk h, hindex, hentry, causeOf_eq_causeFor]
  rfl

/-! ## Translation by the lookup -/

section
variable (he : s.mmu.enable = true) (hl : ¬ Linear s va) {write : Bool}
include he hl

/-- A page-mapped address that the lookup finds. -/
theorem translate_hit {pa : Word} (h : lookup s.mmu s.mode va write = .hit pa) :
    Machine.translate va write s = .ok pa s := by
  rw [Machine.translate, if_pos he, if_neg (fun hm => hl ((linearMapped_iff s va).1 hm)), h]

/-- Any other answer of the lookup is a fault, noted in the MMU registers. -/
theorem translate_fault (ht : s.mmu.testMode = false) {l : Lookup} (h : lookup s.mmu s.mode va write = l)
    (hno : ∀ pa, l ≠ .hit pa) : Machine.translate va write s = .fault (noteException s va l) := by
  rw [Machine.translate, if_pos he, if_neg (fun hm => hl ((linearMapped_iff s va).1 hm)), h]
  cases l with
  | hit pa => exact absurd rfl (hno pa)
  | excp cause index => simp only [ht, Bool.false_eq_true, if_false]
  | miss cause => simp only [ht, Bool.false_eq_true, if_false]

/-- A TLB miss is noted as `missed` says. -/
theorem translate_miss (ht : s.mmu.testMode = false) (h : ∀ k, ¬ TlbHit s va k) (write : Bool) :
    Machine.translate va write s = .fault (missed va write s) := by
  rw [translate_fault he hl ht (lookup_noHit h write) nofun, noteException, tlbIndex_location, missed]

end

/-- Test mode with the MMU off: the address as it is, the exception noted in R_MMU_CAUSE alone (20_memory.md R101). -/
theorem translate_tested (he : s.mmu.enable = false) (ht : s.mmu.testMode = true) {write : Bool} {l : Lookup}
    (h : lookup s.mmu s.mode va write = l) : Machine.translate va write s = .ok va (noteCause s l) := by
  simp only [Machine.translate, he, ht, h, Bool.false_eq_true, if_false, if_true]

end

/-- Settles O20. -/
theorem pageMapping : Obligations.PageMapping := by
  unfold Obligations.PageMapping
  refine ⟨fun s va write he ht => ?_, fun s va write k he hl hk honly hwe hacc hinv => ?_⟩
  · simp only [Machine.translate, he, ht, Bool.false_eq_true, if_false]
  · have hwe' : (write && !(entryAt s va k).we && s.mmu.weExcp) = false := by
      simpa [or_iff_not_imp_left] using hwe
    have hacc' : (decide (s.mode = .user) && (entryAt s va k).kernel && s.mmu.accExcp) = false := by
      simpa [or_iff_not_imp_left] using hacc
    have hinv' : (!(entryAt s va k).valid && s.mmu.invExcp) = false := by
      simpa [or_iff_not_imp_left] using hinv
    refine ⟨_, translate_hit he hl (lookup_oneHit hk honly hwe'.symm hacc'.symm hinv'.symm), ?_⟩
    rw [toNat_append_eq_add, toNat_extractLsb'_eq_div_mod, Nat.pow_zero, Nat.div_one]

/-- Settles O21: the MMU on, then test mode with the MMU off; in each no hit, one hit, several hits. -/
theorem mmuExceptions : Obligations.MmuExceptions := by
  unfold Obligations.MmuExceptions
  refine ⟨fun s va write he ht hl => ⟨?_, ?_, ?_⟩, fun s va write he ht => ⟨?_, ?_, ?_⟩⟩
  · exact fun hno => translate_miss he hl ht hno write
  · intro k inv acc we hk honly hwe hacc hinv hany
    have hlookup := lookup_oneHit hk honly hwe hacc hinv
    rw [if_pos hany] at hlookup
    exact translate_fault he hl ht hlookup nofun
  · exact fun j k hj hk hjk => translate_fault he hl ht (lookup_severalHits hj hk hjk write) nofun
  · exact fun hno => translate_tested he ht (lookup_noHit hno write)
  · intro k inv acc we hk honly hwe hacc hinv
    rw [translate_tested he ht (lookup_oneHit hk honly hwe hacc hinv)]
    split <;> rfl
  · exact fun j k hj hk hjk => translate_tested he ht (lookup_severalHits hj hk hjk write)

end Sys2Proof.Proofs
end

section
/-! O23 and O47: accesses that stop, and stores that the conditional test suppresses. -/

namespace Sys2Proof.Proofs

-- Declarations are checked one after another: many at once need more threads than the memory limit of the check allows.
set_option Elab.async false

open Sys2Proof.Machine Sys2Proof.Laws

/-! ## O23: single bytes where an access is refused -/

section
variable {s : State} (h : Plain s)
include h

/-- A byte read where `PHYS_MEM` has nothing (U11). -/
theorem busCycle_read_unmapped {a : Word} (hk : regionKind s (physIndex a 0) = none) :
    busCycle none a 1 s = .refused (.unmappedPhysical (physIndex a 0)) := by
  have hnote := plain_note h a
  have hk' : regionKind (noteBreakpoint a s) (physIndex a 0) = none := by simpa [regionKind] using hk
  simp [busCycle, popOutside_plain hnote, popStep_plain hnote, translate_plain hnote, physRead, exactWindow_plain hnote,
    touchesWindow_plain hnote, accessRefusal, hk']

/-- A byte write into read-only memory (20_memory.md R84; log 4). -/
theorem busCycle_write_rom {a : Word} (v : Word) (hk : regionKind s (physIndex a 0) = some .rom) :
    busCycle (some v) a 1 s = .refused (.romWrite (physIndex a 0)) := by
  have hnote := plain_note h a
  have hk' : regionKind (noteBreakpoint a s) (physIndex a 0) = some .rom := by simpa [regionKind] using hk
  simp [busCycle, popOutside_plain hnote, popStep_plain hnote, translate_plain hnote, physWrite, exactWindow_plain hnote,
    touchesWindow_plain hnote, accessRefusal, hk']

/-- A byte is one cycle. -/
theorem dataRead_byte_unmapped (c : Ctx) {a : Word} (hk : regionKind s (physIndex a 0) = none) :
    dataRead c none a 1 s = .stop (.refused (.unmappedPhysical (physIndex a 0))) := by
  simp [dataRead, crosses_byte, readCycle, busCycle_read_unmapped h hk]

theorem dataWrite_byte_rom (c : Ctx) {a : Word} (v : Word) (hk : regionKind s (physIndex a 0) = some .rom) :
    dataWrite c none a 1 v s = .stop (.refused (.romWrite (physIndex a 0))) := by
  simp [dataWrite, crosses_byte, writeCycle, busCycle_write_rom h _ hk]

end

section
variable {s : State} (hp : NothingPending s)
include hp

/-- The mode `[Rn]` stops where its read stops. -/
theorem loadOperand_indirect_stop (c : Ctx) (r : RegNo) (n : Nat) {o : Host.Outcome State Fault Refusal}
    (hread : dataRead c none (readReg r s) n s = .stop o) : loadOperand c false r n s = .stop o := by
  have hr : restartCycle s = none := by simp [restartCycle, hp.noRestart]
  simp [loadOperand, operandRefusal_nothingPending hp, operandAddress_nothingPending hp, hr, readOperand, isInline, hread,
    Act.andThen]

/-- The mode `[Rn]` stops where its write stops. -/
theorem storeOperand_indirect_stop (c : Ctx) (r : RegNo) (n : Nat) {v : Word} (hx : storeSuppressed s = false)
    {o : Host.Outcome State Fault Refusal} (hwrite : dataWrite c none (readReg r s) n v s = .stop o) :
    storeOperand c false r n v s = .stop o := by
  have hr : restartCycle s = none := by simp [restartCycle, hp.noRestart]
  simp [storeOperand, operandRefusal_nothingPending hp, operandAddress_nothingPending hp, hr, hx, hwrite, Act.andThen]

theorem exec_moveBMem_unmapped (h : Plain s) (d r : RegNo)
    (hk : regionKind s (physIndex (readReg r s) 0) = none) :
    exec (.moveBMem d false r) s = .refused (.unmappedPhysical (physIndex (readReg r s) 0)) := by
  have href : memoryRefusal (formMove .byte) d false r s = none :=
    memoryRefusal_move_none rfl rfl hp.noSlot (by simp [hp.noPrefix])
  have hload := fun c => loadOperand_indirect_stop hp c r 1 (dataRead_byte_unmapped h c hk)
  show aluMem (formMove .byte) (calcMove .byte) _ d false r s = _
  simp only [aluMem, href]
  exact congrArg (Act.finish · _) (hload _)

theorem exec_moveBStore_rom (h : Plain s) (r d : RegNo) (hx : storeSuppressed s = false)
    (hk : regionKind s (physIndex (readReg d s) 0) = some .rom) :
    exec (.moveBStore r false d) s = .refused (.romWrite (physIndex (readReg d s) 0)) := by
  have hstore := fun c => storeOperand_indirect_stop hp c d 1 hx (dataWrite_byte_rom h c (readReg r s) hk)
  simp only [exec_moveBStore_eq_storeReg, storeReg, sizeBytes, hstore, Act.finish]

end

/-! ## Stale instruction bytes (20_memory.md R91) -/

/-- The first stale byte of a halfword is named. -/
theorem staleFetch_of_stale {s : State} {pa : Word} (h : (staleByte s.stores pa 0 || staleByte s.stores pa 1) = true) :
    staleFetch s pa = some (.selfModifiedCode (physIndex pa (if staleByte s.stores pa 0 then 0 else 1))) := by
  unfold staleFetch
  by_cases h0 : staleByte s.stores pa 0 = true
  · rw [if_pos h0, if_pos h0]
  · have h1 : staleByte s.stores pa 1 = true := by simpa [h0] using h
    rw [if_neg h0, if_neg h0, if_pos h1]

theorem fetched_stale {s : State} {a : Word} {x : Refusal} (hf : staleFetch s a = some x) (h : Half) :
    fetched h a s = .stop (.refused x) := by
  simp only [fetched, hf]

/-- The fetch of a halfword, by a cycle with nothing in its way, is refused where a byte of it is stale. -/
theorem fetchHalf_stale (onFault : Bool → State → Act Half) {s : State} {a : Word} {x : Refusal} (h : Plain s)
    (he : a.getLsbD 0 = false) (hp : s.prefetch = none) (hr : Readable s a 4) (hs : staleFetch s a = some x) :
    fetchHalf onFault a s = .stop (.refused x) := by
  have hcycle := busCycle_read_plain h (readable_of_le hr (k := if a.getLsbD 1 then 2 else 4) (by split <;> decide))
  simp only [fetchHalf, he, Bool.false_eq_true, if_false, hp, fetchCycle, hcycle]
  refine fetched_stale ((staleFetch_of_stores ?_ a).trans hs) _
  exact noteBreakpoint_stores a s

theorem step_stale {s : State} (h : Plain s) (hre : s.resume = none)
    (hev : pendingEvent (popIrq s).1 (popIrq s).2 = none) (hp : s.prefetch = none) (he : s.pc.getLsbD 0 = false)
    (hr : Readable s s.pc 4) {x : Refusal} (hs : staleFetch s s.pc = some x) : step s = .refused x := by
  have hstep : step s = fetchAndExec (popIrq s).2 := by
    simp only [step, hre, checkAndRun, hev]
  have hfetch : fetchInstr (popIrq s).2 = .stop (.refused x) := by
    rw [popIrq_form]
    exact fetchHalf_stale _ ⟨h.mmuOff, h.testOff, h.noSingleStep, h.noWindows, h.noOutside⟩ he hp hr hs
  rw [hstep, fetchAndExec, hfetch, Act.finish]

/-! ## A bus-fault vector that no TLB entry reaches (60_exceptions.md R469; log 20) -/

/-- The vector of a bus fault lies in a page-mapped segment and no TLB entry hits it. -/
structure VectorUnreachable (s : State) : Prop where
  /-- R_MMU_ENABLE is 1. -/
  mmuOn : s.mmu.enable = true
  /-- R_TEST_MODE is 0. -/
  testOff : s.mmu.testMode = false
  /-- The single-step unit is silent. -/
  noSingleStep : s.steps = []
  /-- The segment is page-mapped. -/
  pageMapped : s.mmu.kseg.getLsbD ((vectorAt s 0x2E).toNat / 2 ^ 28) = false
  /-- No entry hits. -/
  noHit : ∀ k, ¬ TlbHit s (vectorAt s 0x2E) k

/-- It depends on the MMU without R_MMU_CAUSE and R_TLB_SELECT, on IBR and on the answers of the single-step unit. -/
theorem vectorUnreachable_of_same {s t : State} (hm : t.mmu = { s.mmu with cause := t.mmu.cause, select := t.mmu.select })
    (hr : t.sregs = s.sregs) (hs : t.steps = s.steps) (h : VectorUnreachable s) : VectorUnreachable t := by
  have hvector : vectorAt t 0x2E = vectorAt s 0x2E := by rw [vectorAt, vectorAt, hr]
  refine ⟨?_, ?_, hs.trans h.noSingleStep, ?_, fun k => ?_⟩
  · rw [hm]
    exact h.mmuOn
  · rw [hm]
    exact h.testOff
  · rw [hvector, hm]
    exact h.pageMapped
  · rw [hvector, TlbHit, entryAt, hm]
    exact h.noHit k

/-- A cycle whose translation faults, the single-step unit silent. -/
theorem busCycle_of_translate_fault {datum : Option Word} {a : Word} (n : Nat) {s s' : State} (hs : s.steps = [])
    (ht : Machine.translate a datum.isSome (popOutside (noteBreakpoint a s)) = .fault s') :
    busCycle datum a n s = .fault false s' := by
  have hpop : popStep (popOutside (noteBreakpoint a s)) = (false, popOutside (noteBreakpoint a s)) := by
    simp [popStep, hs]
  simp only [busCycle, hpop, ht]

/-- The lookup of the vector misses. -/
theorem translate_vector_unreachable {s : State} (h : VectorUnreachable s) :
    Machine.translate (vectorAt s 0x2E) false s = .fault (missed (vectorAt s 0x2E) false s) :=
  translate_miss h.mmuOn (fun ⟨_, hk⟩ => Bool.false_ne_true (h.pageMapped.symm.trans hk)) h.testOff h.noHit false

/-- The vector read bus-faults, and the vector is as unreachable as before. -/
theorem busCycle_vector_unreachable {s : State} (h : VectorUnreachable s) :
    ∃ s', VectorUnreachable s' ∧ busCycle none (vectorAt s 0x2E) 4 s = .fault false s' := by
  have hcycle : VectorUnreachable (popOutside (noteBreakpoint (vectorAt s 0x2E) s)) :=
    vectorUnreachable_of_same (by simp) (by simp) (by simp) h
  have hmiss := translate_vector_unreachable hcycle
  rw [show vectorAt (popOutside (noteBreakpoint (vectorAt s 0x2E) s)) 0x2E = vectorAt s 0x2E by simp [vectorAt]] at hmiss
  exact ⟨_, vectorUnreachable_of_same (by simp only [missed]) (by simp only [missed]) (by simp only [missed]) hcycle,
    busCycle_of_translate_fault 4 h.noSingleStep hmiss⟩

/-- Each bus fault leads to the next, whatever bound is set. -/
theorem takeEvent_unreachable (n : Nat) : ∀ {b : BusFault} {s : State}, b.single = false → VectorUnreachable s →
    takeEvent n (.busFault b) s = .fault .busFaultLoop := by
  induction n with
  | zero => exact fun _ _ => rfl
  | succ n ih =>
    intro b s hb h
    have hack : VectorUnreachable (acknowledge (.busFault b) s) := vectorUnreachable_of_same rfl rfl rfl h
    have hvector : vectorAddress (eventVector (.busFault b)) (acknowledge (.busFault b) s) =
        vectorAt (acknowledge (.busFault b) s) 0x2E := by
      rw [vectorAddress_eq_vectorAt, eventVector, hb]
      rfl
    obtain ⟨s', hs', hcycle⟩ := busCycle_vector_unreachable hack
    simp only [takeEvent, hvector, hcycle]
    exact ih rfl hs'

/-- Settles O23. -/
theorem accessesWithoutMeaningStop : Obligations.AccessesWithoutMeaningStop := by
  unfold Obligations.AccessesWithoutMeaningStop
  refine ⟨⟨fun s d r h hre hd ha _ hk => ?_, fun s d r h hre hd ha hx hk => ?_, fun s h hre hev hp he hr hs => ?_⟩,
    fun s b hb he ht hs hseg hno => ?_⟩
  · exact exec_moveBMem_unmapped ⟨hre, hd, ha⟩ h d r hk
  · exact exec_moveBStore_rom ⟨hre, hd, ha⟩ h r d hx hk
  · exact step_stale h hre hev hp he hr (staleFetch_of_stale hs)
  · exact takeEvent_unreachable _ hb ⟨he, ht, hs, hseg, hno⟩

/-! ## O47: suppressed stores (20_memory.md R76) -/

section
variable {s : State} {md : Bool} {d : RegNo} (hx : storeSuppressed s = true) (hslot : SlotOk s)
  (hform : s.delay.isSome = true → s.prefixAddr = none ∧ isInline md d s = false)
  (hassign : md = true → d = 15#4 → s.prefixAddr = none)
include hslot

/-- The end of a word whose store is suppressed. -/
theorem complete_suppressed (md : Bool) (d : RegNo) (n : Nat) (window : Bool) :
    complete (ending (endAddress md d n s) .none window)
      (updateAddress md d n (operandAddress d s) (noteSuppressed s)) = .next (suppressedEnd md d n window s) :=
  complete_plain _ _ _ (slotOk_of_delay ((updateAddress_delay ..).trans (noteSuppressed_delay s)) hslot)

include hx hform hassign

theorem storeReg_suppressed (m : Size) (word : Half) (r : RegNo) :
    storeReg m word r md d s = .next (suppressedEnd md d (sizeBytes m) false s) := by
  simp only [storeReg, storeOperand_suppressed _ _ hform hassign hx, Act.finish]
  exact complete_suppressed hslot md d _ false

theorem moveFromSregMem_suppressed (word : Half) {p : SReg} {z : Size} (hz : sregSize p = some z) :
    moveFromSregMem word p md d s = .next (suppressedEnd md d (sizeBytes z) true s) := by
  simp only [moveFromSregMem, hz, storeOperand_suppressed _ _ hform hassign hx, Act.finish]
  exact complete_suppressed hslot md d _ true

/-- MOVEM makes the test once for all its registers (41_data_transfer.md R255). -/
theorem movemStoreOp_suppressed (word : Half) (r : RegNo) (hre : s.resume = none) :
    movemStoreOp word r md d s = .next (suppressedEnd md d (4 * (r.toNat + 1)) false s) := by
  have href : movemRefusal false r md d s = none := by
    simp [movemRefusal, restartCycle, hre, operandRefusal_none hform hassign]
  simp only [movemStoreOp, href, hx, if_true, Act.finish]
  exact complete_suppressed hslot md d _ false

end

/-- Settles O47. -/
theorem suppressedStores : Obligations.SuppressedStores := by
  unfold Obligations.SuppressedStores
  intro s d r md hf hxf hre hslot hform hassign
  have hx : storeSuppressed s = true := by simp [storeSuppressed, hf, hxf]
  have store (m : Size) (word : Half) := storeReg_suppressed hx hslot hform hassign m word r
  have move (word : Half) {p : SReg} {z : Size} (hz : sregSize p = some z) :=
    moveFromSregMem_suppressed hx hslot hform hassign word hz
  refine ⟨store .byte _, store .word _, store .dword _, move _ (p := .p0) (z := .byte) rfl,
    move _ (p := .p4) (z := .word) rfl, move _ (p := .p8) (z := .dword) rfl, fun p z hz => move _ hz, ?_, ?_, movemStoreOp_suppressed hx hslot hform hassign _ r hre⟩
  · rintro rfl rfl
    exact store .dword _
  · rintro p z hz rfl rfl
    exact move _ hz

end Sys2Proof.Proofs
end

section
/-! O2, O3, O4 and O26: words and the instructions they decode to, and words that cannot use a pending address. Every word
of the tables is put together from its fields, so encoding what it decodes to is followed row by row of 30_encoding.md R141 to
R153. -/

namespace Sys2Proof.Proofs

-- Declarations are checked one after another: many at once need more threads than the memory limit of the check allows.
set_option Elab.async false

open Sys2Proof.Machine Sys2Proof.Laws

/-! ## Fields, codes and tables -/

/-- The instruction is well formed and its word is `w`. -/
def Encodes (w : Half) (i : Instr) : Prop := WellFormed i = true ∧ encode i = w

/-- A 4-bit code, case by case. -/
theorem code_cases {P : BitVec 4 → Prop} (c0 : P 0#4) (c1 : P 1#4) (c2 : P 2#4) (c3 : P 3#4) (c4 : P 4#4) (c5 : P 5#4)
    (c6 : P 6#4) (c7 : P 7#4) (c8 : P 8#4) (c9 : P 9#4) (c10 : P 10#4) (c11 : P 11#4) (c12 : P 12#4) (c13 : P 13#4)
    (c14 : P 14#4) (c15 : P 15#4) (c : BitVec 4) : P c := by
  obtain ⟨n⟩ := c
  fin_cases n
  exacts [c0, c1, c2, c3, c4, c5, c6, c7, c8, c9, c10, c11, c12, c13, c14, c15]

@[simp] theorem code_ofCode_cond (c : BitVec 4) : (Cond.ofCode c).code = c := by revert c; decide
@[simp] theorem code_ofCode_sreg (c : BitVec 4) : (SReg.ofCode c).code = c := by revert c; decide

/-- An entry of a table row that is chosen by the Size field. -/
theorem encodes_pickSize {w : Half} {z : BitVec 2} {b h d f : Instr} (hb : z = 0#2 → Encodes w b)
    (hh : z = 1#2 → Encodes w h) (hd : z = 2#2 → Encodes w d) (hf : z = 3#2 → Encodes w f) :
    Encodes w (pickSize z b h d f) := by
  have sizes : ∀ z : BitVec 2, z = 0#2 ∨ z = 1#2 ∨ z = 2#2 ∨ z = 3#2 := by decide
  obtain rfl | rfl | rfl | rfl := sizes z
  exacts [hb rfl, hh rfl, hd rfl, hf rfl]

/-- A table row in which only the entry of size code 11 has conditions. -/
theorem encodes_row {a : BitVec 4} {m : BitVec 2} {c : BitVec 4} {z : BitVec 2} {e : BitVec 4} {b h d f : Instr}
    (hb : Encodes (mkWord a m c 0#2 e) b) (hh : Encodes (mkWord a m c 1#2 e) h) (hd : Encodes (mkWord a m c 2#2 e) d)
    (hf : z = 3#2 → Encodes (mkWord a m c z e) f) : Encodes (mkWord a m c z e) (pickSize z b h d f) :=
  encodes_pickSize (fun hz => hz ▸ hb) (fun hz => hz ▸ hh) (fun hz => hz ▸ hd) hf

/-- An entry of a table row that another row overrides under a condition. -/
theorem encodes_ite {w : Half} {q : Prop} [Decidable q] {i j : Instr} (hi : q → Encodes w i)
    (hj : ¬ q → Encodes w j) : Encodes w (if q then i else j) := by
  split
  · next h => exact hi h
  · next h => exact hj h

/-! ## Words without a meaning -/

theorem encodes_reserved_iff {w v : Half} : Encodes w (.reserved v) ↔ v = w ∧ isReserved w = true :=
  ⟨fun ⟨hv, hw⟩ => have hvw : v = w := hw; ⟨hvw, hvw ▸ hv⟩, fun ⟨hvw, hw⟩ => ⟨hvw ▸ hw, hvw⟩⟩

theorem encodes_unlisted_iff {w v : Half} : Encodes w (.unlisted v) ↔ v = w ∧ isUnlisted w = true :=
  ⟨fun ⟨hv, hw⟩ => have hvw : v = w := hw; ⟨hvw, hvw ▸ hv⟩, fun ⟨hvw, hw⟩ => ⟨hvw ▸ hw, hvw⟩⟩

theorem mkWord_and (a : BitVec 4) (b : BitVec 2) (c : BitVec 4) (z : BitVec 2) (e a' : BitVec 4) (b' : BitVec 2)
    (c' : BitVec 4) (z' : BitVec 2) (e' : BitVec 4) :
    mkWord a b c z e &&& mkWord a' b' c' z' e' = mkWord (a &&& a') (b &&& b') (c &&& c') (z &&& z') (e &&& e') := by
  apply BitVec.eq_of_getLsbD_eq
  intro i _
  simp only [BitVec.getLsbD_and, getLsbD_mkWord]
  split_ifs <;> rfl

section
variable (a : BitVec 4) (b : BitVec 2) (c : BitVec 4) (z : BitVec 2) (e : BitVec 4)

/-- A mask without the Operand fields does not see them. -/
theorem mkWord_and_inner (b' : BitVec 2) (c' : BitVec 4) (z' : BitVec 2) :
    mkWord a b c z e &&& mkWord 0#4 b' c' z' 0#4 = mkWord 0#4 b c z 0#4 &&& mkWord 0#4 b' c' z' 0#4 := by
  simp only [mkWord_and, BitVec.and_zero]

theorem mkWord_and_outer (a' : BitVec 4) (b' : BitVec 2) (c' : BitVec 4) (z' : BitVec 2) :
    mkWord a b c z e &&& mkWord a' b' c' z' 0#4 = mkWord a b c z 0#4 &&& mkWord a' b' c' z' 0#4 := by
  simp only [mkWord_and, BitVec.and_zero]

/-- The Operand fields do not matter to the reserved words (30_encoding.md R153). -/
theorem isReserved_mkWord : isReserved (mkWord a b c z e) = isReserved (mkWord 0#4 b c z 0#4) := by
  have h0FF0 : mkWord a b c z e &&& 0x0FF0#16 = _ := mkWord_and_inner a b c z e 3#2 15#4 3#2
  have h0BF0 : mkWord a b c z e &&& 0x0BF0#16 = _ := mkWord_and_inner a b c z e 2#2 15#4 3#2
  rw [isReserved, h0FF0, h0BF0]
  rfl

/-- Operand1 matters to the unlisted words only beside the 16-bit Bcc (30_encoding.md R153). -/
theorem isUnlisted_mkWord (hc : c ≠ 7#4) : isUnlisted (mkWord a b c z e) = isUnlisted (mkWord a b c z 0#4) := by
  have h0FF0 : mkWord a b c z e &&& 0x0FF0#16 = mkWord a b c z 0#4 &&& 0x0FF0#16 :=
    mkWord_and_outer a b c z e 0#4 3#2 15#4 3#2
  have h0BF0 : mkWord a b c z e &&& 0x0BF0#16 = mkWord a b c z 0#4 &&& 0x0BF0#16 :=
    mkWord_and_outer a b c z e 0#4 2#2 15#4 3#2
  have hFFF0 : mkWord a b c z e &&& 0xFFF0#16 = mkWord a b c z 0#4 &&& 0xFFF0#16 :=
    mkWord_and_outer a b c z e 15#4 3#2 15#4 3#2
  have hF000 : mkWord a b c z e &&& 0xF000#16 = mkWord a b c z 0#4 &&& 0xF000#16 :=
    mkWord_and_outer a b c z e 15#4 0#2 0#4 0#2
  have hop2 : (mkWord a b c z e).extractLsb' 12 4 = (mkWord a b c z 0#4).extractLsb' 12 4 :=
    (fieldOp2_mkWord a b c z e).trans (fieldOp2_mkWord a b c z 0#4).symm
  have hbcc : (mkWord a b c z 0#4 &&& 0x0BF0#16 == 0x09F0#16) = false :=
    beq_false_of_ne fun h => hc ((fieldOpcode_mkWord a b c z 0#4).symm.trans (fields_of_mask0BF0 h).2.1)
  simp only [isUnlisted, notJumpMember, h0FF0, h0BF0, hFFF0, hF000, hop2, hbcc, Bool.false_and]

/-- A word of the opcode and size of the 16-bit Bcc is that branch with [PC+] alone (30_encoding.md R153). -/
theorem isUnlisted_bcc16 {md : Bool} (h : ¬ (md = true ∧ e = 15#4)) :
    isUnlisted (mkWord a (memMode md) 7#4 3#2 e) = true := by
  have hform : mkWord a (memMode md) 7#4 3#2 e &&& 0x0BF0#16 = 0x09F0#16 :=
    (mkWord_and_inner a (memMode md) 7#4 3#2 e 2#2 15#4 3#2).trans (by cases md <;> rfl)
  have hother : mkWord a (memMode md) 7#4 3#2 e &&& 0x0FFF#16 ≠ 0x0DFF#16 := by
    intro hw
    have hfields : mkWord (a &&& 0#4) (memMode md &&& 3#2) 7#4 3#2 (e &&& 15#4) = mkWord 0#4 3#2 7#4 3#2 15#4 :=
      (mkWord_and a (memMode md) 7#4 3#2 e 0#4 3#2 15#4 3#2 15#4).symm.trans hw
    have hmd := congrArg fieldMd hfields
    have he := congrArg fieldOp1 hfields
    rw [fieldMd_mkWord, fieldMd_mkWord] at hmd
    rw [fieldOp1_mkWord, fieldOp1_mkWord] at he
    refine h ⟨?_, BitVec.and_allOnes.symm.trans he⟩
    cases md with
    | false => exact hmd
    | true => rfl
  simp [isUnlisted, hform, hother]

end

section
variable {a : BitVec 4} {b : BitVec 2} {c : BitVec 4} {z : BitVec 2} {e : BitVec 4}

theorem encodes_reserved_mkWord (h : isReserved (mkWord 0#4 b c z 0#4) = true) :
    Encodes (mkWord a b c z e) (.reserved (mkWord a b c z e)) :=
  encodes_reserved_iff.2 ⟨rfl, (isReserved_mkWord a b c z e).trans h⟩

theorem encodes_unlisted_mkWord (hc : c ≠ 7#4) (h : isUnlisted (mkWord a b c z 0#4) = true) :
    Encodes (mkWord a b c z e) (.unlisted (mkWord a b c z e)) :=
  encodes_unlisted_iff.2 ⟨rfl, (isUnlisted_mkWord a b c z e hc).trans h⟩

end

/-! ## Quick words (mode 00) -/

/-- A quick word is put together from its fields. -/
theorem mkQuick_fields {w : Half} (h : fieldMode w = 0#2) :
    mkQuick (fieldOp2 w) (fieldOpcode w) (fieldQuick w) = w := by
  apply BitVec.eq_of_getLsbD_eq
  intro i hi
  rw [getLsbD_mkQuick]
  simp only [fieldOp2, fieldOpcode, fieldQuick, BitVec.getLsbD_extractLsb']
  split_ifs with h1 h2 h3
  · simp [h1]
  · simp [show i - 6 < 4 by omega, show 6 + (i - 6) = i by omega]
  · have hbit : (fieldMode w).getLsbD (i - 10) = w.getLsbD i := by
      simp [fieldMode, show i - 10 < 2 by omega, show 10 + (i - 10) = i by omega]
    rw [← hbit, h, BitVec.getLsbD_zero]
  · simp [show i - 12 < 4 by omega, show 12 + (i - 12) = i by omega]

/-- Bcc and BDAP take two bits of the Opcode field into their byte (30_encoding.md R134). -/
theorem byteWord_eq_mkQuick (a : BitVec 4) (t k : BitVec 2) (j : BitVec 6) :
    a ++ (0#2 ++ t) ++ (k ++ j) = mkQuick a (t ++ k) j := by
  apply BitVec.eq_of_getLsbD_eq
  intro i hi
  rw [getLsbD_byteWord, getLsbD_mkQuick]
  simp only [BitVec.getLsbD_append]
  split_ifs <;> first | omega | rfl | simp

theorem fieldByte_mkQuick (a : BitVec 4) (t k : BitVec 2) (j : BitVec 6) :
    fieldByte (mkQuick a (t ++ k) j) = k ++ j := by
  rw [← byteWord_eq_mkQuick, fieldByte_byteWord]

theorem encodes_bcc (a : BitVec 4) (k : BitVec 2) (j : BitVec 6) :
    Encodes (mkQuick a (0#2 ++ k) j) (.bcc (Cond.ofCode a) (fieldByte (mkQuick a (0#2 ++ k) j))) := by
  refine ⟨rfl, ?_⟩
  rw [encode, code_ofCode_cond, fieldByte_mkQuick]
  exact byteWord_eq_mkQuick a 0#2 k j

theorem encodes_bdapByte (a : BitVec 4) (k : BitVec 2) (j : BitVec 6) :
    Encodes (mkQuick a (1#2 ++ k) j) (.bdapByte a (fieldByte (mkQuick a (1#2 ++ k) j))) := by
  refine ⟨rfl, ?_⟩
  rw [encode, fieldByte_mkQuick]
  exact byteWord_eq_mkQuick a 1#2 k j

/-- The 5-bit count with the bit before it is the quick field (30_encoding.md R134). -/
theorem bit5_append_count (j : BitVec 6) : BitVec.ofBool j[5] ++ j.extractLsb' 0 5 = j := by
  ext i hi
  rw [BitVec.getElem_append]
  split_ifs with h
  · rw [BitVec.getElem_extractLsb', Nat.zero_add, BitVec.getLsbD_eq_getElem]
  · obtain rfl : i = 5 := by omega
    simp

/-- A shift or bit test with an immediate count, in the two halves of its Opcode. -/
theorem encodes_count {a c : BitVec 4} {j : BitVec 6} {i k : BitVec 5 → Instr}
    (hi : ∀ n, Encodes (mkQuick a c (1#1 ++ n)) (i n)) (hk : ∀ n, Encodes (mkQuick a c (0#1 ++ n)) (k n)) :
    Encodes (mkQuick a c j) (if (mkQuick a c j).getLsbD 5 then i (fieldCount (mkQuick a c j))
      else k (fieldCount (mkQuick a c j))) := by
  have hj := bit5_append_count j
  rw [fieldCount_mkQuick, BitVec.getLsbD_eq_getElem (by decide), bit5_mkQuick]
  cases hb : j[5] <;> rw [hb] at hj
  · exact (congrArg (mkQuick a c) hj) ▸ hk (j.extractLsb' 0 5)
  · exact (congrArg (mkQuick a c) hj) ▸ hi (j.extractLsb' 0 5)

/-- The table of mode 00 (30_encoding.md R141). -/
theorem encodes_decodeQuick (a c : BitVec 4) (j : BitVec 6) :
    Encodes (mkQuick a c j) (decodeQuick (mkQuick a c j)) := by
  simp only [decodeQuick, fieldOp2_mkQuick, fieldOpcode_mkQuick, fieldQuick_mkQuick]
  cases c using code_cases with
  | c0 => exact encodes_bcc a 0#2 j
  | c1 => exact encodes_bcc a 1#2 j
  | c2 => exact encodes_bcc a 2#2 j
  | c3 => exact encodes_bcc a 3#2 j
  | c4 => exact encodes_bdapByte a 0#2 j
  | c5 => exact encodes_bdapByte a 1#2 j
  | c6 => exact encodes_bdapByte a 2#2 j
  | c7 => exact encodes_bdapByte a 3#2 j
  | c8 | c9 | c10 | c11 | c12 | c13 => exact ⟨rfl, rfl⟩
  | c14 => exact encodes_count (fun _ => ⟨rfl, rfl⟩) fun _ => ⟨rfl, rfl⟩
  | c15 => exact encodes_count (fun _ => ⟨rfl, rfl⟩) fun _ => ⟨rfl, rfl⟩

/-! ## Register forms (mode 01) -/

/-- MOVE.m, and TEST.m of one register (30_encoding.md R160). -/
theorem encodes_decodeMoveReg (a e : BitVec 4) {z : BitVec 2} (hz : z ≠ 3#2) :
    Encodes (mkWord a 1#2 9#4 z e) (decodeMoveReg z a e) := by
  have moved (h : a ≠ e) : (a != e) = true := bne_iff_ne.2 h
  refine encodes_ite (fun h => ?_) fun h => ?_
  · subst h
    exact encodes_row ⟨rfl, rfl⟩ ⟨rfl, rfl⟩ ⟨rfl, rfl⟩ fun h => absurd h hz
  · exact encodes_row ⟨moved h, rfl⟩ ⟨moved h, rfl⟩ ⟨moved h, rfl⟩ fun h => absurd h hz

/-- MOVE Ps,Rd with CLEAR.m and the returns (30_encoding.md R161, R162). -/
theorem encodes_decodeFromSpecial (p : SReg) (e : BitVec 4) :
    Encodes (mkWord p.code 1#2 9#4 3#2 e) (decodeFromSpecial p e) := by
  cases p with
  | p0 | p4 | p8 => exact ⟨rfl, rfl⟩
  | srp | brp | irp =>
    refine encodes_ite (fun h => h ▸ ⟨rfl, rfl⟩) fun h => ⟨?_, rfl⟩
    show (!(e == 15#4 && true)) = true
    simpa using h
  | _ =>
    refine ⟨?_, rfl⟩
    show (!(e == 15#4 && false)) = true
    simp

/-- SETF with AX and EI (44_flags_nop.md R383, R384). -/
theorem encodes_decodeSetf (k : BitVec 8) :
    Encodes (mkWord (k.extractLsb' 4 4) 1#2 6#4 3#2 (k.extractLsb' 0 4)) (decodeSetf k) := by
  refine encodes_ite (fun h => h ▸ ⟨rfl, rfl⟩) fun hax => encodes_ite (fun h => h ▸ ⟨rfl, rfl⟩) fun hei => ⟨?_, rfl⟩
  show (k != 0x10#8 && k != 0x20#8) = true
  simp [hax, hei]

/-- CLEARF with DI (44_flags_nop.md R385). -/
theorem encodes_clearf (k : BitVec 8) :
    Encodes (mkWord (k.extractLsb' 4 4) 1#2 7#4 3#2 (k.extractLsb' 0 4)) (if k = 0x20#8 then .di else .clearf k) :=
  encodes_ite (fun h => h ▸ ⟨rfl, rfl⟩) fun h => ⟨bne_iff_ne.2 h, rfl⟩

/-- A mask from its two halves. -/
theorem mask_high (a e : BitVec 4) : (a ++ e).extractLsb' 4 4 = a := BitVec.extractLsb'_append_eq_left
theorem mask_low (a e : BitVec 4) : (a ++ e).extractLsb' 0 4 = e := BitVec.extractLsb'_append_eq_right

/-- The table of mode 01 (30_encoding.md R142, R143). -/
theorem encodes_decodeReg (a c : BitVec 4) (z : BitVec 2) (e : BitVec 4) :
    Encodes (mkWord a 1#2 c z e) (decodeReg (mkWord a 1#2 c z e)) := by
  simp only [decodeReg, fieldOp2_mkWord, fieldOpcode_mkWord, fieldSize_mkWord, fieldOp1_mkWord, fieldMask_mkWord]
  cases c using code_cases with
  | c0 | c1 | c2 | c3 | c10 | c11 | c12 | c14 | c15 =>
    exact encodes_row ⟨rfl, rfl⟩ ⟨rfl, rfl⟩ ⟨rfl, rfl⟩ fun h => h ▸ ⟨rfl, rfl⟩
  | c4 =>
    refine encodes_row (encodes_ite (fun h => ?_) fun h => ⟨?_, rfl⟩) ⟨rfl, rfl⟩ ⟨rfl, rfl⟩ fun h => h ▸ ⟨rfl, ?_⟩
    · obtain ⟨rfl, rfl⟩ := h
      exact ⟨rfl, rfl⟩
    · show (!(a == 0#4 && e == 15#4)) = true
      simpa [← not_and_or] using h
    · rw [encode, code_ofCode_cond]
  | c5 => exact encodes_row ⟨rfl, rfl⟩ ⟨rfl, rfl⟩ ⟨rfl, rfl⟩ fun h => encodes_reserved_mkWord (h ▸ rfl)
  | c6 =>
    refine encodes_row ⟨rfl, rfl⟩ ⟨rfl, rfl⟩ ⟨rfl, rfl⟩ fun h => h ▸ ?_
    simpa only [mask_high, mask_low] using encodes_decodeSetf (a ++ e)
  | c7 =>
    refine encodes_row ⟨rfl, rfl⟩ ⟨rfl, rfl⟩ ⟨rfl, rfl⟩ fun h => h ▸ ?_
    simpa only [mask_high, mask_low] using encodes_clearf (a ++ e)
  | c8 =>
    refine encodes_row ⟨rfl, rfl⟩ ⟨rfl, rfl⟩ ⟨rfl, rfl⟩ fun h => h ▸ ⟨rfl, ?_⟩
    rw [encode, code_ofCode_sreg]
  | c9 =>
    have move {k : BitVec 2} (hk : k ≠ 3#2) (h : z = k) : Encodes (mkWord a 1#2 9#4 z e) (decodeMoveReg z a e) :=
      encodes_decodeMoveReg a e (h ▸ hk)
    refine encodes_pickSize (move (by decide)) (move (by decide)) (move (by decide)) fun h => h ▸ ?_
    simpa only [code_ofCode_sreg] using encodes_decodeFromSpecial (SReg.ofCode a) e
  | c13 =>
    refine encodes_row ⟨rfl, rfl⟩ ⟨rfl, rfl⟩ ⟨rfl, rfl⟩ fun h => h ▸ encodes_ite (fun h => ?_) fun h => ?_
    · exact h ▸ ⟨rfl, rfl⟩
    · exact ⟨bne_iff_ne.2 h, rfl⟩

/-! ## Memory forms (modes 10 and 11) -/

/-- TEST has one value of Operand2 (30_encoding.md R153). -/
theorem isUnlisted_test : ∀ (md : Bool) (z : BitVec 2), z ≠ 3#2 → ∀ a : BitVec 4, a ≠ 0#4 →
    isUnlisted (mkWord a (memMode md) 14#4 z 0#4) = true := by decide

/-- The jump family with a memory operand (30_encoding.md R146, R165). -/
theorem encodes_decodeJumpMem (a : BitVec 4) (md : Bool) (e : BitVec 4) :
    Encodes (mkWord a (memMode md) 4#4 3#2 e) (decodeJumpMem (mkWord a (memMode md) 4#4 3#2 e)) := by
  simp only [decodeJumpMem, fieldOp2_mkWord, fieldMd_mkWord, memMode_bit, fieldOp1_mkWord]
  cases a using code_cases with
  | c0 | c2 | c3 | c6 | c8 | c10 | c11 => exact ⟨rfl, rfl⟩
  | c14 => cases md with
    | false => exact ⟨rfl, rfl⟩
    | true => exact encodes_unlisted_mkWord (by decide) rfl
  | c1 | c4 | c5 | c7 | c9 | c12 | c13 | c15 => exact encodes_unlisted_mkWord (by decide) (by cases md <;> rfl)

/-- The jump family with a register operand, and its words in mode 11 (30_encoding.md R145, R146). -/
theorem encodes_decodeJumpReg (a : BitVec 4) (md : Bool) (e : BitVec 4) :
    Encodes (mkWord a (memMode md) 6#4 3#2 e) (decodeJumpReg (mkWord a (memMode md) 6#4 3#2 e)) := by
  simp only [decodeJumpReg, fieldOp2_mkWord, fieldMd_mkWord, memMode_bit, fieldOp1_mkWord]
  cases md with
  | true => exact encodes_reserved_mkWord rfl
  | false =>
    cases a using code_cases with
    | c0 | c2 | c3 | c6 | c10 | c11 => exact ⟨rfl, rfl⟩
    | c1 | c4 | c5 | c7 | c8 | c9 | c12 | c13 | c14 | c15 => exact encodes_unlisted_mkWord (by decide) rfl

/-- A memory form that is not the one with [SP+] (30_encoding.md R164). -/
theorem not_stack {md : Bool} {q : RegNo} (h : ¬ (md = true ∧ q = 14#4)) : (!(md && q == 14#4)) = true := by
  cases md with
  | false => rfl
  | true => exact bne_iff_ne.2 fun hq => h ⟨rfl, hq⟩

/-- An entry with another spelling for one register with autoincrement. -/
theorem encodes_ite_autoincrement {a : BitVec 4} {md : Bool} {c : BitVec 4} {z : BitVec 2} {e q : BitVec 4}
    {i j : Instr} (hi : Encodes (mkWord a 3#2 c z q) i)
    (hj : ¬ (md = true ∧ e = q) → Encodes (mkWord a (memMode md) c z e) j) :
    Encodes (mkWord a (memMode md) c z e) (if md = true ∧ e = q then i else j) := by
  refine encodes_ite (fun h => ?_) hj
  obtain ⟨rfl, rfl⟩ := h
  exact hi

/-- A memory form with one value of Operand2 (30_encoding.md R153). -/
theorem encodes_ite_unlisted {a k : BitVec 4} {m : BitVec 2} {c : BitVec 4} {z : BitVec 2} {e : BitVec 4} {i : Instr}
    (hc : c ≠ 7#4) (hi : Encodes (mkWord k m c z e) i) (hu : ∀ a, a ≠ k → isUnlisted (mkWord a m c z 0#4) = true) :
    Encodes (mkWord a m c z e) (if a = k then i else .unlisted (mkWord a m c z e)) :=
  encodes_ite (fun h => h ▸ hi) fun h => encodes_unlisted_mkWord hc (hu a h)

/-- MOVE Ps,[ ] with PUSH Ps and CLEAR.m (30_encoding.md R161, R164). -/
theorem encodes_decodeFromSpecialMem (p : SReg) (md : Bool) (e : BitVec 4) :
    Encodes (mkWord p.code (memMode md) 9#4 3#2 e) (decodeFromSpecialMem p md e) := by
  refine encodes_ite_autoincrement ⟨rfl, rfl⟩ fun h => ?_
  cases p with
  | p0 | p4 | p8 | _ => exact ⟨not_stack h, rfl⟩

/-- The table of modes 10 and 11 (30_encoding.md R144, R145). -/
theorem encodes_decodeMem (a : BitVec 4) (md : Bool) (c : BitVec 4) (z : BitVec 2) (e : BitVec 4) :
    Encodes (mkWord a (memMode md) c z e) (decodeMem (mkWord a (memMode md) c z e)) := by
  simp only [decodeMem, fieldOp2_mkWord, fieldOpcode_mkWord, fieldSize_mkWord, fieldOp1_mkWord, fieldMd_mkWord,
    memMode_bit]
  cases c using code_cases with
  | c0 | c1 | c2 | c3 => exact encodes_row ⟨rfl, rfl⟩ ⟨rfl, rfl⟩ ⟨rfl, rfl⟩ fun h => h ▸ ⟨rfl, rfl⟩
  | c4 =>
    cases md with
    | true => exact encodes_row ⟨rfl, rfl⟩ ⟨rfl, rfl⟩ ⟨rfl, rfl⟩ fun h => h ▸ encodes_decodeJumpMem a true e
    | false => exact encodes_row ⟨rfl, rfl⟩ ⟨rfl, rfl⟩ ⟨rfl, rfl⟩ fun h => h ▸ encodes_decodeJumpMem a false e
  | c5 =>
    refine encodes_row ⟨rfl, rfl⟩ ⟨rfl, rfl⟩ ⟨rfl, rfl⟩ ?_
    rintro rfl
    exact encodes_ite_unlisted (by decide) ⟨rfl, rfl⟩ (by cases md <;> decide)
  | c6 =>
    have reserved {k : BitVec 2} (hk : isReserved (mkWord 0#4 (memMode md) 6#4 k 0#4) = true) (h : z = k) :
        Encodes (mkWord a (memMode md) 6#4 z e) (.reserved (mkWord a (memMode md) 6#4 z e)) :=
      encodes_reserved_mkWord (h ▸ hk)
    exact encodes_pickSize (reserved (by cases md <;> rfl)) (reserved (by cases md <;> rfl))
      (reserved (by cases md <;> rfl)) fun h => h ▸ encodes_decodeJumpReg a md e
  | c7 =>
    refine encodes_row ⟨rfl, rfl⟩ ⟨rfl, rfl⟩ ⟨rfl, rfl⟩ ?_
    rintro rfl
    exact encodes_ite_autoincrement ⟨rfl, by rw [encode, code_ofCode_cond]⟩ fun h =>
      encodes_unlisted_iff.2 ⟨rfl, isUnlisted_bcc16 a e h⟩
  | c8 =>
    refine encodes_row ⟨rfl, rfl⟩ ⟨rfl, rfl⟩ ⟨rfl, rfl⟩ ?_
    rintro rfl
    exact encodes_ite_autoincrement ⟨rfl, by rw [encode, code_ofCode_sreg]⟩ fun h =>
      ⟨not_stack h, by rw [encode, code_ofCode_sreg]⟩
  | c9 =>
    refine encodes_row ⟨rfl, rfl⟩ ⟨rfl, rfl⟩ (encodes_ite_autoincrement ⟨rfl, rfl⟩ fun h => ⟨not_stack h, rfl⟩) ?_
    rintro rfl
    simpa only [code_ofCode_sreg] using encodes_decodeFromSpecialMem (SReg.ofCode a) md e
  | c10 | c11 =>
    refine encodes_row ⟨rfl, rfl⟩ ⟨rfl, rfl⟩ ⟨rfl, rfl⟩ fun h => encodes_reserved_mkWord ?_
    subst h
    cases md <;> rfl
  | c12 | c13 =>
    refine encodes_row ⟨rfl, rfl⟩ ⟨rfl, rfl⟩ ⟨rfl, rfl⟩ ?_
    rintro rfl
    exact encodes_ite_unlisted (by decide) ⟨rfl, rfl⟩ (by cases md <;> decide)
  | c14 =>
    refine encodes_ite (fun h => h ▸ ⟨rfl, rfl⟩) fun hz => encodes_ite_unlisted (by decide) ?_ ?_
    · exact encodes_row ⟨rfl, rfl⟩ ⟨rfl, rfl⟩ ⟨rfl, rfl⟩ fun h => absurd h hz
    · exact isUnlisted_test md z hz
  | c15 =>
    exact encodes_row ⟨rfl, rfl⟩ ⟨rfl, rfl⟩ (encodes_ite_autoincrement ⟨rfl, rfl⟩ fun h => ⟨not_stack h, rfl⟩)
      fun h => h ▸ ⟨rfl, rfl⟩

/-! ## O2 and O4 -/

/-- Every word is a row of the table of its mode (30_encoding.md R139). -/
theorem encodes_decodeWord (w : Half) : Encodes w (decodeWord w) := by
  have modes : ∀ m : BitVec 2, m = 0#2 ∨ m = 1#2 ∨ m = memMode false ∨ m = memMode true := by decide
  have hw := mkWord_fields w
  obtain h | h | h | h := modes (fieldMode w) <;> rw [h] at hw <;> rw [decodeWord, h]
  · exact mkQuick_fields h ▸ encodes_decodeQuick _ _ _
  · exact hw ▸ encodes_decodeReg _ _ _ _
  · exact hw ▸ encodes_decodeMem _ false _ _ _
  · exact hw ▸ encodes_decodeMem _ true _ _ _

/-- Settles O2: the two parts are `Encodes`. -/
theorem encodeOfDecode : Obligations.EncodeOfDecode := by
  unfold Obligations.EncodeOfDecode
  exact encodes_decodeWord

theorem exec_reserved (w : Half) (s : State) : exec (.reserved w) s = .refused (.reservedEncoding w) := rfl
theorem exec_unlisted (w : Half) (s : State) : exec (.unlisted w) s = .refused (.unlistedEncoding w) := rfl

/-- Settles O4: what the tables mark is decoded as marked, and a word that is decoded as marked is well formed and
encodes back, so that the tables mark it. -/
theorem wordsWithoutMeaningStop : Obligations.WordsWithoutMeaningStop := by
  unfold Obligations.WordsWithoutMeaningStop
  refine ⟨fun w s hw => ?_, fun w s hw => ?_, fun w v hv => ?_, fun w v hv => ?_, fun w hw => ?_, exec_reserved,
    exec_unlisted, fun _ => rfl⟩
  · rw [decode_reserved hw, exec_reserved]
  · rw [decode_unlisted hw, exec_unlisted]
  · exact encodes_reserved_iff.1 (hv ▸ encodes_decodeWord w)
  · exact encodes_unlisted_iff.1 (hv ▸ encodes_decodeWord w)
  · obtain ⟨hwf, _⟩ := hw ▸ encodes_decodeWord w
    exact Bool.false_ne_true hwf

/-- Settles O3, by running the decoder on the thirty words. -/
theorem sampleWordsDecode : Obligations.SampleWordsDecode := by
  unfold Obligations.SampleWordsDecode
  decide

/-! ## O26: a pending address that the word cannot use (U5) -/

section
variable {s : State} (ha : s.prefixAddr.isSome = true)
include ha

theorem aluCore_prefixUnusable (f : AluForm) (g : Calc) (d : RegNo) (src : Word) :
    aluCore f g d src s = .refused .prefixUnusable := if_pos ha

theorem aluReg_prefixUnusable (f : AluForm) (g : Calc) (d r : RegNo) : aluReg f g d r s = .refused .prefixUnusable :=
  aluCore_prefixUnusable ha f g d _

theorem mulReg_prefixUnusable (product : Word → Word → BitVec 64) (flags : BitVec 64 → Flags → Flags) (d r : RegNo) :
    mulReg product flags d r s = .refused .prefixUnusable := if_pos ha

theorem flagOp_prefixUnusable (g : Flags → Flags) : flagOp g s = .refused .prefixUnusable := if_pos ha

theorem execNop_prefixUnusable : execNop s = .refused .prefixUnusable := if_pos ha

theorem moveToSregReg_prefixUnusable (p : SReg) (r : RegNo) : moveToSregReg p r s = .refused .prefixUnusable :=
  if_pos ha

theorem moveFromSregReg_prefixUnusable (p : SReg) (d : RegNo) : moveFromSregReg p d s = .refused .prefixUnusable :=
  if_pos ha

theorem transferRefusal_prefixUnusable : transferRefusal s = some .prefixUnusable := if_pos ha

theorem branchShort_prefixUnusable (c : Cond) (o : BitVec 8) : branchShort c o s = .refused .prefixUnusable := by
  rw [branchShort, transferRefusal_prefixUnusable ha]

theorem branchLong_prefixUnusable (word : Half) (c : Cond) : branchLong word c s = .refused .prefixUnusable := by
  rw [branchLong, transferRefusal_prefixUnusable ha]

theorem jumpReg_prefixUnusable (k : JumpKind) (r : RegNo) : jumpReg k r s = .refused .prefixUnusable := by
  rw [jumpReg, transferRefusal_prefixUnusable ha]

theorem execBreakN_prefixUnusable (n : BitVec 4) : execBreakN n s = .refused .prefixUnusable := by
  rw [execBreakN, transferRefusal_prefixUnusable ha]

/-- The slot of a taken transfer is refused before the pending address. -/
theorem bytePrefix_prefixUnusable (hd : s.delay = none) (b : RegNo) (o : BitVec 8) :
    bytePrefix b o s = .refused .prefixUnusable := by
  simp [bytePrefix, hd, ha]

end

/-- Settles O26: every shape of word without a memory operand tests for a pending address first. -/
theorem unusablePrefixStops : Obligations.UnusablePrefixStops := by
  unfold Obligations.UnusablePrefixStops
  intro s d r j c o n k e p ha hd
  have quick (f : AluForm) {g : Calc} {q : RegNo} {src : Word} := aluCore_prefixUnusable ha f g q src
  have reg (f : AluForm) {g : Calc} {q t : RegNo} := aluReg_prefixUnusable ha f g q t
  have mul {product : Word → Word → BitVec 64} {flags : BitVec 64 → Flags → Flags} :=
    mulReg_prefixUnusable ha product flags d r
  have flags {g : Flags → Flags} := flagOp_prefixUnusable ha g
  have jump {kind : JumpKind} := jumpReg_prefixUnusable ha kind r
  have special (q : SReg) {t : RegNo} := moveFromSregReg_prefixUnusable ha q t
  exact ⟨quick (formUpdate .dword), quick (formUpdate .dword), quick (formMove .dword), quick (formCompare .dword),
    quick (formUpdate .dword), quick (formUpdate .dword), quick (formCompare .dword), quick (formUpdate .dword),
    quick (formUpdateNoPc .dword), quick (formUpdateNoPc .dword),
    reg (formSized .byte), reg (formSized .word), reg (formSized .dword),
    reg (formSized .byte), reg (formSized .word), reg (formSized .dword),
    reg (formCompare .byte), reg (formCompare .word), reg (formCompare .dword),
    reg (formSized .byte), reg (formSized .word), reg (formSized .dword),
    reg (formSized .byte), reg (formSized .word), reg (formSized .dword),
    reg (formMove .byte), reg (formMove .word), reg (formMove .dword),
    reg (formBound .byte), reg (formBound .word), reg (formBound .dword),
    reg (formNeg .byte), reg (formNeg .word), reg (formNeg .dword),
    reg (formUpdateNoPc .byte), reg (formUpdateNoPc .word), reg (formUpdateNoPc .dword),
    reg (formUpdate .byte), reg (formUpdate .word), reg (formUpdate .dword),
    reg (formUpdateNoPc .byte), reg (formUpdateNoPc .word), reg (formUpdateNoPc .dword),
    reg (formUnsigned .byte), reg (formUnsigned .word), reg (formSigned .byte), reg (formSigned .word),
    reg (formUnsigned .byte), reg (formUnsigned .word), reg (formSigned .byte), reg (formSigned .word),
    reg (formMoveUnsigned .byte), reg (formMoveUnsigned .word),
    reg (formMoveSigned .byte), reg (formMoveSigned .word),
    reg (formTest .byte), reg (formTest .word), reg (formTest .dword),
    reg (formUpdateNoPc .dword), reg (formUpdateNoPc .dword), reg (formUpdateNoPc .dword), reg (formMove .dword),
    reg (formUpdateNoPc .dword), reg (formUpdateNoPc .dword), reg (formMove .dword), reg (formUpdate .dword),
    reg (formCompare .dword), quick (formUpdateNoPc .dword), quick (formUpdateNoPc .dword), quick formScc,
    mul, mul, mul, mul, mul, mul, execNop_prefixUnusable ha, flags, flags, flags, flags, flags,
    branchShort_prefixUnusable ha e k, branchLong_prefixUnusable ha _ e, execBreakN_prefixUnusable ha n,
    jump, jump, jump, jump, jump, jump, moveToSregReg_prefixUnusable ha p r, special p,
    special .p0, special .p4, special .p8, special .srp, special .brp, special .irp,
    bytePrefix_prefixUnusable ha hd d k⟩

end Sys2Proof.Proofs
end

section
/-! O40 and O57: the memory operand of a word in every addressing mode, and BIAP, BDAP and DIP, which hand an address to the
word after them. -/

namespace Sys2Proof.Proofs

-- Declarations are checked one after another: many at once need more threads than the memory limit of the check allows.
set_option Elab.async false

open Sys2Proof.Machine Sys2Proof.Laws

/-! ## PC as a register operand (10_state.md R29) -/

theorem readReg_pc (s : State) : readReg 15#4 s = pcPlus2 s := by simp [readReg]

theorem pcPlus2_of_noRestart {s : State} (hre : s.resume = none) : pcPlus2 s = s.pc + 2#32 := by simp [pcPlus2, hre]

/-- Reading an operand leaves the registers alone. -/
theorem readReg_readOnly {fetches : Bool} {s t : State} (h : ReadOnly fetches s t) (q : RegNo) : readReg q t = readReg q s := by
  rw [h.1]
  rfl

/-! ## In-line operands and the address after the word (40_addressing.md R208, 10_state.md R28) -/

theorem isInline_indirect (r : RegNo) (s : State) : isInline false r s = false := rfl

theorem isInline_of_register {r : RegNo} (hr : r ≠ 15#4) (md : Bool) (s : State) : isInline md r s = false := by
  simp [isInline, hr]

theorem isInline_of_pending {s : State} {p : Word} (ha : s.prefixAddr = some p) (md : Bool) (r : RegNo) :
    isInline md r s = false := by
  simp [isInline, ha]

theorem isInline_pc {s : State} (ha : s.prefixAddr = none) : isInline true 15#4 s = true := by simp [isInline, ha]

theorem endAddress_of_not_inline {md : Bool} {r : RegNo} {s : State} (h : isInline md r s = false) (n : Nat) :
    endAddress md r n s = pcPlus2 s := by
  simp [endAddress, h]

/-- In-line data is stepped over, a byte of it as a whole word. -/
theorem endAddress_of_inline {md : Bool} {r : RegNo} {s : State} (h : isInline md r s = true) (n : Nat) :
    endAddress md r n s = pcPlus2 s + BitVec.ofNat 32 (if n = 1 then 2 else n) := by
  simp [endAddress, h, inlineStep]

/-! ## The operand's address (40_addressing.md R203 to R207) -/

theorem operandAddress_of_noRestart {s : State} (hre : s.resume = none) (r : RegNo) :
    operandAddress r s = s.prefixAddr.getD (readReg r s) := by
  simp [operandAddress, restartCycle, hre]

theorem operandAddress_of_pending {s : State} {p : Word} (hre : s.resume = none) (ha : s.prefixAddr = some p) (r : RegNo) :
    operandAddress r s = p := by
  simp [operandAddress_of_noRestart hre, ha]

/-! ## The update of the address register (40_addressing.md R204, R215) -/

theorem updateAddress_indirect (r : RegNo) (n : Nat) (a : Word) (t : State) : updateAddress false r n a t = t := rfl

theorem updateAddress_autoincrement {t : State} (ha : t.prefixAddr = none) (r : RegNo) (n : Nat) (a : Word) :
    updateAddress true r n a t = writeReg r (a + BitVec.ofNat 32 n) t := by
  simp [updateAddress, ha]

theorem updateAddress_assign {t : State} {p : Word} (ha : t.prefixAddr = some p) (r : RegNo) (n : Nat) (a : Word) :
    updateAddress true r n a t = writeReg r a t := by
  simp [updateAddress, ha]

/-- PC is never the register that is updated. -/
theorem updateAddress_pc (n : Nat) (a : Word) (t : State) : updateAddress true 15#4 n a t = t := by
  cases ha : t.prefixAddr with
  | none => rw [updateAddress_autoincrement ha, writeReg_to_pc]
  | some p => rw [updateAddress_assign ha, writeReg_to_pc]

/-- Settles O40: each mode by the rule of its operand address, its register update and its end. -/
theorem operandForms : Obligations.OperandForms := by
  unfold Obligations.OperandForms
  intro s r n hre
  have hpc : pcPlus2 s = s.pc + 2#32 := pcPlus2_of_noRestart hre
  refine ⟨fun ha => ?plain, fun a t ha hr => ?autoincrement, updateAddress_pc n, fun p ha => ?pending⟩
  case plain =>
    have haddr (q : RegNo) : operandAddress q s = readReg q s := by simp [operandAddress_of_noRestart hre, ha]
    refine ⟨haddr r, ?_, updateAddress_indirect r n, ?_, fun hr => ?_, ?_⟩
    · rw [haddr, readReg_pc, hpc]
    · rw [endAddress_of_not_inline (isInline_indirect r s), hpc]
    · rw [endAddress_of_not_inline (isInline_of_register hr true s), hpc]
    · rw [endAddress_of_inline (isInline_pc ha), hpc]
  case autoincrement =>
    rw [updateAddress_autoincrement ha]
    exact ⟨readReg_writeReg_same hr _ t, fun q hq => readReg_writeReg_other hq _ t⟩
  case pending =>
    refine ⟨operandAddress_of_pending hre ha r, fun md => ?_, fun a t hat hr => ?_⟩
    · rw [endAddress_of_not_inline (isInline_of_pending ha md r), hpc]
    · rw [updateAddress_assign hat]
      exact ⟨updateAddress_indirect r n a t, readReg_writeReg_same hr _ t, fun q hq => readReg_writeReg_other hq _ t⟩

/-! ## BIAP and byte BDAP (40_addressing.md R209 to R211, R214) -/

theorem completePrefix_eq_prefixed (seq a : Word) (s : State) : completePrefix seq a s = .next (prefixed seq a s) := rfl

/-- The index is scaled by a power of two; a pending address takes the place of the base. -/
theorem indexPrefix_done {s : State} (hd : s.delay = none) (shift : Nat) (k b : RegNo) :
    indexPrefix shift k b s = .next (prefixed (pcPlus2 s)
      (s.prefixAddr.getD (if b = 15#4 then pcPlus2 s + 2#32 else readReg b s) + readReg k s * BitVec.twoPow 32 shift) s) := by
  simp [indexPrefix, hd, completePrefix_eq_prefixed, BitVec.mul_twoPow_eq_shiftLeft]

theorem indexPrefix_base {s : State} (ha : s.prefixAddr = none) (hd : s.delay = none) (shift : Nat) (k b : RegNo) :
    indexPrefix shift k b s = .next (prefixed (pcPlus2 s)
      ((if b = 15#4 then pcPlus2 s + 2#32 else readReg b s) + readReg k s * BitVec.twoPow 32 shift) s) := by
  rw [indexPrefix_done hd, ha, Option.getD_none]

theorem indexPrefix_pending {s : State} {a : Word} (ha : s.prefixAddr = some a) (hd : s.delay = none) (shift : Nat)
    (k b : RegNo) :
    indexPrefix shift k b s = .next (prefixed (pcPlus2 s) (a + readReg k s * BitVec.twoPow 32 shift) s) := by
  rw [indexPrefix_done hd, ha, Option.getD_some]

theorem bytePrefix_base {s : State} (ha : s.prefixAddr = none) (hd : s.delay = none) (b : RegNo) (o : BitVec 8) :
    bytePrefix b o s = .next (prefixed (pcPlus2 s) (readReg b s + o.signExtend 32) s) := by
  simp [bytePrefix, ha, hd, completePrefix_eq_prefixed]

/-! ## The data that general BDAP and DIP read (40_addressing.md R212 to R214) -/

/-- In line or from memory, an operand that nothing stands in the way of is what memory holds. -/
theorem readOperand_plain (c : Ctx) {inLine : Bool} {s : State} {a : Word} {n : Nat} (hn : n ≤ 2 ∨ n = 4) (h : Plain s)
    (hb : if inLine then Fetchable s a else Readable s a n) :
    ∃ s₁, ReadOnly inLine s s₁ ∧ readOperand c inLine none a n s = .done (loadBytes s.mem a n) s₁ := by
  cases inLine with
  | true => exact inlineRead_plain c hn h (by simpa using hb)
  | false => exact dataRead_plain c h (by simpa using hb)

/-- With nothing pending the data is at the register, which is then updated as for any operand. -/
theorem prefixOperand_register (c : Ctx) {md : Bool} {r : RegNo} {n : Nat} {s : State} (hn : n ≤ 2 ∨ n = 4)
    (hs : NothingPending s) (h : Plain s)
    (hb : if isInline md r s then Fetchable s (readReg r s) else Readable s (readReg r s) n) :
    ∃ s₁, ReadOnly (isInline md r s) s s₁ ∧
      prefixOperand c md r n s = .done (loadBytes s.mem (readReg r s) n) (updateAddress md r n (readReg r s) s₁) := by
  obtain ⟨s₁, hread, hdone⟩ := readOperand_plain c hn h hb
  have hre : restartCycle s = none := by simp [restartCycle, hs.noRestart]
  have hprefix : s₁.prefixAddr = none := by rw [hread.1]; exact hs.noPrefix
  refine ⟨s₁, hread, ?_⟩
  simp [prefixOperand, hre, operandAddress_nothingPending hs, hdone, Act.andThen, updateAddress, hprefix, hs.noPrefix]

/-- With an address pending the data is at the pending address, and no register is updated. -/
theorem prefixOperand_pending (c : Ctx) (md : Bool) (r : RegNo) {n : Nat} {s : State} {a : Word} (hn : n ≤ 2 ∨ n = 4)
    (hre : s.resume = none) (ha : s.prefixAddr = some a) (h : Plain s) (hr : Readable s a n) :
    ∃ s₁, ReadOnly false s s₁ ∧ prefixOperand c md r n s = .done (loadBytes s.mem a n) s₁ := by
  obtain ⟨s₁, hread, hdone⟩ := readOperand_plain c (inLine := false) hn h (by simpa using hr)
  have hcycle : restartCycle s = none := by simp [restartCycle, hre]
  refine ⟨s₁, hread, ?_⟩
  simp [prefixOperand, hcycle, operandAddress_of_pending hre ha, isInline_of_pending ha, hdone, Act.andThen, ha]

/-! ## General BDAP and DIP (40_addressing.md R212 to R214) -/

theorem sizeBytes_le_two_or_four (m : Size) : sizeBytes m ≤ 2 ∨ sizeBytes m = 4 := by cases m <;> simp [sizeBytes]

/-- BDAP once its offset is read. -/
theorem offsetPrefix_of_operand {m : Size} {word : Half} {md : Bool} {r : RegNo} {s s' : State} {v : Word}
    (hd : s.delay = none)
    (hv : prefixOperand { word := word, endPc := endAddress md r (sizeBytes m) s } md r (sizeBytes m) s = .done v s')
    (b : RegNo) :
    offsetPrefix m word b md r s = .next (prefixed (endAddress md r (sizeBytes m) s)
      ((if b = 15#4 then endAddress md r (sizeBytes m) s else readReg b s') + signExtended m v) s') := by
  simp [offsetPrefix, hd, hv, Act.finish, completePrefix_eq_prefixed, signExtended_eq_sextSize]

/-- DIP once its pointer is read. -/
theorem pointerPrefix_of_operand {word : Half} {md : Bool} {r : RegNo} {s s' : State} {v : Word} (hd : s.delay = none)
    (hv : prefixOperand { word := word, endPc := endAddress md r 4 s } md r 4 s = .done v s') :
    pointerPrefix word md r s = .next (prefixed (endAddress md r 4 s) v s') := by
  simp [pointerPrefix, hd, hv, Act.finish, completePrefix_eq_prefixed]

section
variable {s : State} {r : RegNo} {md : Bool}

theorem offsetPrefix_register (m : Size) (word : Half) (b : RegNo) (hs : NothingPending s) (h : Plain s)
    (hb : if isInline md r s then Fetchable s (readReg r s) else Readable s (readReg r s) (sizeBytes m)) :
    ∃ s₁, ReadOnly (isInline md r s) s s₁ ∧
      offsetPrefix m word b md r s = .next (prefixed (endAddress md r (sizeBytes m) s)
        ((if b = 15#4 then endAddress md r (sizeBytes m) s
          else readReg b (updateAddress md r (sizeBytes m) (readReg r s) s₁)) +
          signExtended m (loadBytes s.mem (readReg r s) (sizeBytes m)))
        (updateAddress md r (sizeBytes m) (readReg r s) s₁)) := by
  obtain ⟨s₁, hread, hv⟩ := prefixOperand_register { word := word, endPc := endAddress md r (sizeBytes m) s }
    (sizeBytes_le_two_or_four m) hs h hb
  exact ⟨s₁, hread, offsetPrefix_of_operand hs.noSlot hv b⟩

theorem pointerPrefix_register (word : Half) (hs : NothingPending s) (h : Plain s)
    (hb : if isInline md r s then Fetchable s (readReg r s) else Readable s (readReg r s) 4) :
    ∃ s₁, ReadOnly (isInline md r s) s s₁ ∧ pointerPrefix word md r s = .next (prefixed (endAddress md r 4 s)
      (loadBytes s.mem (readReg r s) 4) (updateAddress md r 4 (readReg r s) s₁)) := by
  obtain ⟨s₁, hread, hv⟩ := prefixOperand_register { word := word, endPc := endAddress md r 4 s } (.inr rfl) hs h hb
  exact ⟨s₁, hread, pointerPrefix_of_operand hs.noSlot hv⟩

variable {a : Word} (hre : s.resume = none) (ha : s.prefixAddr = some a) (hd : s.delay = none) (h : Plain s)
include hre ha hd h

/-- The offset is read at the pending address; PC as the base is the address after the BDAP word. -/
theorem offsetPrefix_pending (m : Size) (word : Half) (b : RegNo) (hr : Readable s a (sizeBytes m)) :
    ∃ s₁, ReadOnly false s s₁ ∧ offsetPrefix m word b md r s = .next (prefixed (pcPlus2 s)
      (readReg b s + signExtended m (loadBytes s.mem a (sizeBytes m))) s₁) := by
  have hseq := endAddress_of_not_inline (isInline_of_pending ha md r) (sizeBytes m)
  obtain ⟨s₁, hread, hv⟩ := prefixOperand_pending { word := word, endPc := endAddress md r (sizeBytes m) s } md r
    (sizeBytes_le_two_or_four m) hre ha h hr
  have hbase : (if b = 15#4 then pcPlus2 s else readReg b s₁) = readReg b s := by
    split
    · next hb => rw [hb, readReg_pc]
    · exact readReg_readOnly hread b
  refine ⟨s₁, hread, ?_⟩
  rw [offsetPrefix_of_operand hd hv, hseq, hbase]

theorem pointerPrefix_pending (word : Half) (hr : Readable s a 4) :
    ∃ s₁, ReadOnly false s s₁ ∧
      pointerPrefix word md r s = .next (prefixed (pcPlus2 s) (loadBytes s.mem a 4) s₁) := by
  obtain ⟨s₁, hread, hv⟩ := prefixOperand_pending { word := word, endPc := endAddress md r 4 s } md r (.inr rfl) hre ha h hr
  refine ⟨s₁, hread, ?_⟩
  rw [pointerPrefix_of_operand hd hv, endAddress_of_not_inline (isInline_of_pending ha md r)]

end

/-- Settles O57: the words with nothing pending, then the words with an address pending. -/
theorem prefixWords : Obligations.PrefixWords := by
  unfold Obligations.PrefixWords
  refine ⟨⟨?index, ?data⟩, ?consecutive⟩
  case index =>
    intro s k b o ha hd
    exact ⟨indexPrefix_base ha hd 0 k b, indexPrefix_base ha hd 1 k b, indexPrefix_base ha hd 2 k b,
      bytePrefix_base ha hd b o⟩
  case data =>
    intro s b r md ha hd hre h
    have hs : NothingPending s := ⟨hre, hd, ha⟩
    exact ⟨offsetPrefix_register .byte _ b hs h, offsetPrefix_register .word _ b hs h,
      offsetPrefix_register .dword _ b hs h, pointerPrefix_register _ hs h⟩
  case consecutive =>
    intro s k b r md a ha hd hre
    refine ⟨indexPrefix_pending ha hd 0 k b, indexPrefix_pending ha hd 1 k b, indexPrefix_pending ha hd 2 k b,
      fun h hr => ?_⟩
    exact ⟨offsetPrefix_pending hre ha hd h .byte _ b (readable_of_le hr (by decide)),
      offsetPrefix_pending hre ha hd h .word _ b (readable_of_le hr (by decide)),
      offsetPrefix_pending hre ha hd h .dword _ b hr, pointerPrefix_pending hre ha hd h _ hr⟩

end Sys2Proof.Proofs
end

section
/-! O36, O37, O44, O46, O49 and O50: the moves of one register and of one memory operand, SWAP and Scc. Each shape of
instruction has one lemma that says how it ends; a claim names the shape and the calculation of each of its words. -/

namespace Sys2Proof.Proofs

-- Declarations are checked one after another: many at once need more threads than the memory limit of the check allows.
set_option Elab.async false

open Sys2Proof.Machine Sys2Proof.Laws

/-! ## Two-operand instructions whose destination is not PC -/

section
variable {f : AluForm} {g : Calc} {d : RegNo} {s : State} {x : Word × Flags}

/-- Quick and register forms that write a register and whose calculation gives `x`. -/
theorem aluCore_registerEnd (hw : f.dest.writes = true) (hwin : f.window = false) {src : Word} (ha : s.prefixAddr = none)
    (hslot : SlotOk s) (hd : d ≠ 15#4) (hx : g s.flags (truncSize f.size (readReg d s)) src = x) :
    aluCore f g d src s = .next (registerEnd f.size d x s) := by
  rw [aluCore_plain f g src ha hslot fun _ => hd, hx, hwin, aluResult, if_pos hw, registerEnd]

/-- Quick and register forms that write flags only: every register may be named. -/
theorem aluCore_flagsEnd (hw : f.dest.writes = false) (hwin : f.window = false) {src : Word} (ha : s.prefixAddr = none)
    (hslot : SlotOk s) (hx : g s.flags (truncSize f.size (readReg d s)) src = x) :
    aluCore f g d src s = .next (flagsEnd x.2 s) := by
  have hno : ¬ f.dest.writes = true := by simp [hw]
  rw [aluCore_plain f g src ha hslot fun h => absurd h hno, hx, hwin, aluResult, if_neg hno, flagsEnd]

/-- Memory forms without a 3-operand form, whose calculation gives `x`. -/
theorem aluMem_operandEnd (hw : f.dest.writes = true) (ht : f.threeOp = false) (hwin : f.window = false) (word : Half)
    {md : Bool} {r : RegNo} (h : OperandReady md r (sizeBytes f.access) s) (href : memoryRefusal f d md r s = none)
    (hd : d ≠ 15#4)
    (hx : g s.flags (truncSize f.size (readReg d s)) (f.source (memoryValue r (sizeBytes f.access) s)) = x) :
    ∃ s₁, ReadOnly (isInline md r s) s s₁ ∧
      aluMem f g word d md r s = .next (operandEnd f.size (sizeBytes f.access) d md r x s s₁) := by
  have hdest : memoryDest f d md r s = d := by simp [memoryDest, ht]
  obtain ⟨s₁, hread, hexec⟩ := aluMem_ready f g word h href fun _ => by rw [hdest]; exact hd
  refine ⟨s₁, hread, ?_⟩
  rw [hexec, hx, hwin, hdest, aluResult, if_pos hw, operandEnd]

/-- A form that only writes its destination has no ground to stop but an Operand1 that differs (U7), unless that is PC. -/
theorem memoryRefusal_write_none (ht : f.threeOp = false) (hr : f.dest.reads = false) {md : Bool} {r : RegNo}
    (hd : d ≠ 15#4) (hdiffers : s.prefixAddr.isSome = true → md = false → r = d) :
    memoryRefusal f d md r s = none := by
  have hdest : memoryDest f d md r s = d := by simp [memoryDest, ht]
  have hsame : ¬ (f.dest.writes && !f.threeOp && s.prefixAddr.isSome && !md && r != d) = true := by
    intro h
    simp only [Bool.and_eq_true, Bool.not_eq_true', bne_iff_ne] at h
    obtain ⟨⟨⟨-, ha⟩, hmd⟩, hne⟩ := h
    exact hne (hdiffers ha hmd)
  rw [memoryRefusal, if_neg hsame, if_neg (by simp [hd]), if_neg (by simp [hr]), hdest]
  exact destRefusal_none fun _ => hd

end

/-! ## O36: register moves -/

/-- Settles O36: each calculation is the move of the claim. -/
theorem moveRegisters : Obligations.MoveRegisters := by
  unfold Obligations.MoveRegisters
  refine ⟨fun s d r i ha hslot hd => ?move, fun s d ha hslot => ?test⟩
  case move =>
    have quick {src : Word} {x : Word × Flags} (hx : calcMove .dword s.flags (readReg d s) src = x) :
        aluCore (formMove .dword) (calcMove .dword) d src s = .next (registerEnd .dword d x s) :=
      aluCore_registerEnd (f := formMove .dword) rfl rfl ha hslot hd hx
    have reg (f : AluForm) (hw : f.dest.writes = true) (hwin : f.window = false) {g : Calc} {x : Word × Flags}
        (hx : g s.flags (truncSize f.size (readReg d s)) (f.source (readReg r s)) = x) :
        aluReg f g d r s = .next (registerEnd f.size d x s) :=
      aluCore_registerEnd hw hwin ha hslot hd hx
    exact ⟨quick (calcMove_dword_eq_movedOf ..),
      reg (formMove .byte) rfl rfl (calcMove_truncSize .byte ..),
      reg (formMove .word) rfl rfl (calcMove_truncSize .word ..),
      reg (formMove .dword) rfl rfl (calcMove_truncSize .dword ..),
      reg (formMoveUnsigned .byte) rfl rfl (calcMovu_eq_movedOf (z := .byte) (by decide) ..),
      reg (formMoveUnsigned .word) rfl rfl (calcMovu_eq_movedOf (z := .word) (by decide) ..),
      reg (formMoveSigned .byte) rfl rfl (calcMove_signed .byte ..),
      reg (formMoveSigned .word) rfl rfl (calcMove_signed .word ..)⟩
  case test =>
    have test (m : Size) : aluReg (formTest m) (calcMove m) d d s =
        .next (flagsEnd (movedOf m s.flags (readReg d s)).2 s) :=
      aluCore_flagsEnd rfl rfl ha hslot (calcMove_truncSize m ..)
    exact ⟨test .byte, test .word, test .dword⟩

/-! ## O44: moves from memory -/

/-- Settles O44: the operand is read, its address register updated, and the register written. -/
theorem moveMemory : Obligations.MoveMemory := by
  unfold Obligations.MoveMemory
  refine ⟨fun s d r md hd hdiffers => ?_, fun s d hd h => ?_⟩
  · have move (f : AluForm) (hw : f.dest.writes = true) (hr : f.dest.reads = false) (ht : f.threeOp = false)
        (hwin : f.window = false) {g : Calc} (word : Half) {x : Word × Flags}
        (h : OperandReady md r (sizeBytes f.access) s)
        (hx : g s.flags (truncSize f.size (readReg d s)) (f.source (memoryValue r (sizeBytes f.access) s)) = x) :=
      aluMem_operandEnd hw ht hwin word h (memoryRefusal_write_none ht hr hd hdiffers) hd hx
    refine ⟨
      fun h => ⟨move (formMove .byte) rfl rfl rfl rfl _ h (calcMove_truncSize .byte ..),
        move (formMoveUnsigned .byte) rfl rfl rfl rfl _ h (calcMovu_eq_movedOf (z := .byte) (by decide) ..),
        move (formMoveSigned .byte) rfl rfl rfl rfl _ h (calcMove_signed .byte ..)⟩,
      fun h => ⟨move (formMove .word) rfl rfl rfl rfl _ h (calcMove_truncSize .word ..),
        move (formMoveUnsigned .word) rfl rfl rfl rfl _ h (calcMovu_eq_movedOf (z := .word) (by decide) ..),
        move (formMoveSigned .word) rfl rfl rfl rfl _ h (calcMove_signed .word ..)⟩,
      fun h => move (formMove .dword) rfl rfl rfl rfl _ h (calcMove_truncSize .dword ..)⟩
  · exact aluMem_operandEnd (f := formMove .dword) rfl rfl rfl (encode (.popReg d)) h
      (memoryRefusal_write_none rfl rfl hd fun _ hmd => by cases hmd) hd (calcMove_truncSize .dword ..)

/-! ## O37: SWAP and Scc -/

/-- Halves exchanged: the bit numbers differ in bit 4. -/
theorem getLsbD_swapHalves (v : Word) {i : Nat} (hi : i < 32) :
    ((v <<< 16) ||| ((v >>> 16) &&& 0xffff#32)).getLsbD i = v.getLsbD (i ^^^ 16) := by
  interval_cases i <;> simp

/-- The bytes of each half exchanged: the bit numbers differ in bit 3. -/
theorem getLsbD_swapBytes (v : Word) {i : Nat} (hi : i < 32) :
    (((v <<< 8) &&& 0xff00ff00#32) ||| ((v >>> 8) &&& 0x00ff00ff#32)).getLsbD i = v.getLsbD (i ^^^ 8) := by
  interval_cases i <;> simp

/-- The bits of each byte reversed: the bit numbers differ in bits 2 to 0. -/
theorem getLsbD_reverseBytes (v : Word) {i : Nat} (hi : i < 32) :
    (((v <<< 7) &&& 0x80808080#32) ||| ((v <<< 5) &&& 0x40404040#32) ||| ((v <<< 3) &&& 0x20202020#32) |||
      ((v <<< 1) &&& 0x10101010#32) ||| ((v >>> 1) &&& 0x08080808#32) ||| ((v >>> 3) &&& 0x04040404#32) |||
      ((v >>> 5) &&& 0x02020202#32) ||| ((v >>> 7) &&& 0x01010101#32)).getLsbD i = v.getLsbD (i ^^^ 7) := by
  interval_cases i <;> simp

/-- An option of SWAP that renumbers the bits, on or off. -/
theorem getLsbD_ite_xor {v v' : Word} {k : Nat} (h : ∀ {j}, j < 32 → v'.getLsbD j = v.getLsbD (j ^^^ k)) (b : Bool)
    {i : Nat} (hi : i < 32) : (if b then v' else v).getLsbD i = v.getLsbD (i ^^^ if b then k else 0) := by
  cases b with
  | false => simp
  | true => simpa using h hi

/-- The four options of SWAP applied in turn (41_data_transfer.md R260; log 40). -/
theorem getLsbD_calcSwap (f : Flags) (v o : Word) {i : Nat} (hi : i < 32) :
    (calcSwap f v o).1.getLsbD i = (v.getLsbD (i ^^^ ((if o.getLsbD 2 then 16 else 0) ^^^
      (if o.getLsbD 1 then 8 else 0) ^^^ (if o.getLsbD 0 then 7 else 0))) ^^ o.getLsbD 3) := by
  have step (b : Bool) {j k : Nat} (hj : j < 32) (hk : k < 32) : (j ^^^ if b then k else 0) < 32 := by
    cases b with
    | false => simpa using hj
    | true => exact Nat.xor_lt_two_pow (n := 5) hj hk
  have hr := step (o.getLsbD 0) hi (k := 7) (by decide)
  have hb := step (o.getLsbD 1) hr (k := 8) (by decide)
  have hw := step (o.getLsbD 2) hb (k := 16) (by decide)
  have hnot {j : Nat} (hj : j < 32) : (if o.getLsbD 3 then ~~~v else v).getLsbD j = (v.getLsbD j ^^ o.getLsbD 3) := by
    cases o.getLsbD 3 <;> simp [hj]
  unfold calcSwap
  dsimp only
  rw [getLsbD_ite_xor (getLsbD_reverseBytes _) _ hi, getLsbD_ite_xor (getLsbD_swapBytes _) _ hr,
    getLsbD_ite_xor (getLsbD_swapHalves _) _ hb, hnot hw]
  congr 2
  ac_rfl

theorem calcSwap_eq_plainResult (f : Flags) (v o : Word) : calcSwap f v o = plainResult .dword f (calcSwap f v o).1 := by
  rw [plainResult_eq_setNZ00]
  rfl

/-- Settles O37. -/
theorem swapAndScc : Obligations.SwapAndScc := by
  unfold Obligations.SwapAndScc
  refine ⟨fun s d o ha hslot hd => ?swap, fun s d c ha hslot hd => ?scc⟩
  case swap =>
    refine ⟨(calcSwap s.flags (readReg d s) (o.setWidth 32)).1, fun i hi => ?_, ?_⟩
    · simpa using getLsbD_calcSwap s.flags (readReg d s) (o.setWidth 32) hi
    · exact aluCore_registerEnd (f := formUpdateNoPc .dword) rfl rfl ha hslot hd (calcSwap_eq_plainResult ..)
  case scc => exact aluCore_plain formScc (calcScc c) 0#32 ha hslot fun _ => hd

/-! ## O46: stores -/

/-- Stores of a special register. -/
theorem moveFromSregMem_ready {p : SReg} {z : Size} (hz : sregSize p = some z) (word : Half) {md : Bool} {d : RegNo}
    {s : State} (h : StoreReady md d (sizeBytes z) s) (hx : storeSuppressed s = false) :
    ∃ s₁, WrittenAt (operandAddress d s) (sizeBytes z) (readSreg p s) s s₁ ∧
      moveFromSregMem word p md d s = .next (finished (endAddress md d (sizeBytes z) s) true false
        (updateAddress md d (sizeBytes z) (operandAddress d s) s₁)) := by
  have hn : sizeBytes z ≤ 4 := by cases z <;> decide
  obtain ⟨s₁, hwritten, hstore⟩ := storeOperand_ready
    { word := word, endPc := endAddress md d (sizeBytes z) s } (readSreg p s) hn h hx
  refine ⟨s₁, hwritten, ?_⟩
  simp only [moveFromSregMem, hz, hstore, Act.finish]
  exact complete_plain _ _ _ (slotOk_of_delay ((updateAddress_delay ..).trans (by rw [hwritten.1])) h.slot)

/-- Settles O46: CLEAR is the store of P0, P4 or P8, and PUSH the store with assign to SP. -/
theorem stores : Obligations.Stores := by
  unfold Obligations.Stores
  intro s d r md hx
  have store (m : Size) (word : Half) {md : Bool} {d : RegNo} (h : StoreReady md d (sizeBytes m) s) :=
    storeReg_ready m word (r := r) h hx
  have special {p : SReg} {z : Size} (hz : sregSize p = some z) (word : Half) {md : Bool} {d : RegNo}
      (h : StoreReady md d (sizeBytes z) s) := moveFromSregMem_ready hz word h hx
  exact ⟨fun h => ⟨store .byte _ h, special (p := .p0) (z := .byte) rfl _ h⟩,
    fun h => ⟨store .word _ h, special (p := .p4) (z := .word) rfl _ h⟩,
    fun h => ⟨store .dword _ h, special (p := .p8) (z := .dword) rfl _ h⟩,
    fun _ _ hz h => special hz _ h,
    fun h => store .dword (encode (.pushReg r)) h,
    fun p _ hz h => special hz (encode (.pushSpecial p)) h⟩

/-! ## O49 and O50: special registers -/

theorem writeSreg_delay (p : SReg) (v : Word) (s : State) : (writeSreg p v s).delay = s.delay := by
  rw [writeSreg_form]

theorem moveToSregReg_plain {p : SReg} {z : Size} (hz : sregSize p = some z) (r : RegNo) {s : State}
    (ha : s.prefixAddr = none) (hslot : SlotOk s) : moveToSregReg p r s =
      .next (finished (pcPlus2 s) true false (writeSreg p (zeroExtended z (readReg r s)) s)) := by
  have hno : ¬ s.prefixAddr.isSome = true := by simp [ha]
  rw [zeroExtended_eq_truncSize]
  simp only [moveToSregReg, if_neg hno, hz]
  exact complete_plain _ _ _ (slotOk_of_delay (writeSreg_delay ..) hslot)

theorem moveToSregMem_ready {p : SReg} {z : Size} (hz : sregSize p = some z) (word : Half) {md : Bool} {r : RegNo}
    {s : State} (h : OperandReady md r (sizeBytes z) s) :
    ∃ s₁, ReadOnly (isInline md r s) s s₁ ∧
      moveToSregMem word p md r s = .next (finished (endAddress md r (sizeBytes z) s) true false
        (writeSreg p (memoryValue r (sizeBytes z) s) (updateAddress md r (sizeBytes z) (operandAddress r s) s₁))) := by
  obtain ⟨s₁, hread, hload⟩ := loadOperand_ready
    { word := word, endPc := endAddress md r (sizeBytes z) s } (sizeBytes_le_two_or_four z) h
  refine ⟨s₁, hread, ?_⟩
  simp only [moveToSregMem, hz, hload, Act.finish]
  exact complete_plain _ _ _ (slotOk_of_delay
    ((writeSreg_delay ..).trans ((updateAddress_delay ..).trans (readOnly_delay hread))) h.slot)

/-- Settles O49. -/
theorem movesToSpecial : Obligations.MovesToSpecial := by
  unfold Obligations.MovesToSpecial
  intro s p z hz
  exact ⟨fun r ha hslot => moveToSregReg_plain hz r ha hslot,
    fun r md h => moveToSregMem_ready hz (encode (.moveToSpecialMem p md r)) h,
    fun h => moveToSregMem_ready hz (encode (.popSpecial p)) h⟩

/-- No flag but X changes. -/
theorem withResult_keepFlags (m : Size) (d : RegNo) (v : Word) (s : State) :
    withResult m d (v, s.flags) s = writeReg d (mergeSize m (readReg d s) v) s := by
  rw [withResult, writeReg_form]

theorem moveFromSregReg_plain {p : SReg} {z : Size} (hz : sregSize p = some z) {d : RegNo} {s : State}
    (ha : s.prefixAddr = none) (hslot : SlotOk s) (hd : d ≠ 15#4) : moveFromSregReg p d s =
      .next (finished (pcPlus2 s) true false (withResult z d (readSreg p s, s.flags) s)) := by
  have hno : ¬ s.prefixAddr.isSome = true := by simp [ha]
  rw [withResult_keepFlags]
  simp only [moveFromSregReg, if_neg hno, hz, if_neg hd]
  exact complete_plain _ _ _ (slotOk_of_delay (writeReg_delay ..) hslot)

/-- Settles O50: CLEAR of a register is the move of P0, P4 or P8. -/
theorem movesFromSpecial : Obligations.MovesFromSpecial := by
  unfold Obligations.MovesFromSpecial
  intro s d ha hslot hd
  have move {p : SReg} {z : Size} (hz : sregSize p = some z) := moveFromSregReg_plain hz ha hslot hd
  exact ⟨fun _ _ hz => move hz, move (p := .p0) (z := .byte) rfl, move (p := .p4) (z := .word) rfl,
    move (p := .p8) (z := .dword) rfl⟩

end Sys2Proof.Proofs
end

section
/-! O52: MOVEM. What its loads and its stores may change and the dwords that they move, each by induction on the number of
registers, as `loadRegs` and `storeRegs` recurse. -/

namespace Sys2Proof.Proofs

-- Declarations are checked one after another: many at once need more threads than the memory limit of the check allows.
set_option Elab.async false

open Sys2Proof.Machine Sys2Proof.Laws

/-- With `n + 1` registers at `a`, the dword of register `k` is where it is with `n` registers at `a + 4`. -/
theorem descending_address_succ (a : Word) {n k : Nat} (hk : k < n) :
    a + 4#32 + BitVec.ofNat 32 (4 * (n - 1 - k)) = a + BitVec.ofNat 32 (4 * (n - k)) := by
  rw [BitVec.add_assoc, show n - k = 1 + (n - 1 - k) by omega, Nat.mul_add, BitVec.ofNat_add]

theorem regNo_eq_ofNat {k : RegNo} {n : Nat} (h : k.toNat = n) : k = BitVec.ofNat 4 n := by
  rw [← h, BitVec.ofNat_toNat, BitVec.setWidth_eq]

/-- Only PC has number 15. -/
theorem toNat_lt_of_ne_pc {k : RegNo} (hk : k ≠ 15#4) : k.toNat < 15 := by
  have hne : k.toNat ≠ 15 := fun h => hk (BitVec.eq_of_toNat_eq h)
  omega

/-! ## What loading registers may change -/

/-- `RegistersLoaded` without the values loaded: what any number of loads of registers may change. -/
structure LoadFrame (inLine : Bool) (s t : State) : Prop where
  /-- Nothing else changes. -/
  frame : t = { s with
    regs := t.regs, ssp := t.ssp, usp := t.usp, prefetch := t.prefetch, hwbreakPending := t.hwbreakPending }
  /-- The stack pointer of the other mode stays. -/
  otherStack : if s.mode = .user then t.ssp = s.ssp else t.usp = s.usp
  /-- The prefetch register changes only for in-line data. -/
  prefetch : inLine = false → t.prefetch = s.prefetch
  /-- A breakpoint hit is latched only if B is set. -/
  breakpoint : s.flags.b = false → t.hwbreakPending = s.hwbreakPending

theorem LoadFrame.refl (inLine : Bool) (s : State) : LoadFrame inLine s s :=
  ⟨rfl, by simp, fun _ => rfl, fun _ => rfl⟩

theorem LoadFrame.trans {inLine : Bool} {s t u : State} (h : LoadFrame inLine s t) (h' : LoadFrame inLine t u) :
    LoadFrame inLine s u where
  frame := by
    rw [h'.frame]
    dsimp only
    rw [h.frame]
  otherStack := by
    have hmode : t.mode = s.mode := by rw [h.frame]
    have hs := h.otherStack
    have ht := h'.otherStack
    rw [hmode] at ht
    split
    · next hu =>
      rw [if_pos hu] at hs ht
      exact ht.trans hs
    · next hu =>
      rw [if_neg hu] at hs ht
      exact ht.trans hs
  prefetch := fun hi => (h'.prefetch hi).trans (h.prefetch hi)
  breakpoint := fun hb => (h'.breakpoint (by rw [h.frame]; exact hb)).trans (h.breakpoint hb)

theorem LoadFrame.of_readOnly {inLine : Bool} {s t : State} (h : ReadOnly inLine s t) : LoadFrame inLine s t := by
  obtain ⟨hform, hprefetch, hbreak⟩ := h
  refine ⟨?_, ?_, hprefetch, hbreak⟩
  · rw [hform]
  · rw [hform]
    simp

theorem LoadFrame.writeReg (inLine : Bool) (r : RegNo) (v : Word) (s : State) : LoadFrame inLine s (writeReg r v s) :=
  ⟨by rw [writeReg_form], writeReg_otherStack r v s, fun _ => writeReg_prefetch r v s,
    fun _ => writeReg_hwbreakPending r v s⟩

theorem LoadFrame.mem {inLine : Bool} {s t : State} (h : LoadFrame inLine s t) : t.mem = s.mem := by rw [h.frame]

theorem LoadFrame.delay {inLine : Bool} {s t : State} (h : LoadFrame inLine s t) : t.delay = s.delay := by rw [h.frame]

theorem LoadFrame.plain {inLine : Bool} {s t : State} (h : LoadFrame inLine s t) (hp : Plain s) : Plain t := by
  rw [h.frame]
  exact ⟨hp.mmuOff, hp.testOff, hp.noSingleStep, hp.noWindows, hp.noOutside⟩

theorem LoadFrame.readable {inLine : Bool} {s t : State} (h : LoadFrame inLine s t) {a : Word} {n : Nat}
    (hr : Readable s a n) : Readable t a n := by
  rw [h.frame]
  exact hr

theorem LoadFrame.fetchable {inLine : Bool} {s t : State} (h : LoadFrame inLine s t) (hp : Prefetched t) {a : Word}
    (hf : Fetchable s a) : Fetchable t a where
  even := hf.even
  readable := h.readable hf.readable
  fresh := fun i hi => (staleFetch_of_stores (by rw [h.frame]) _).trans (hf.fresh i hi)
  prefetched := hp

/-! ## Dwords that MOVEM reads -/

/-- Dwords at ascending addresses may be read: as code if they are in line. -/
def DwordsReady (inLine : Bool) (s : State) (a : Word) (n : Nat) : Prop :=
  if inLine then ∀ k, k < n → Fetchable s (a + BitVec.ofNat 32 (4 * k)) else Readable s a (4 * n)

theorem dwordsReady_head {inLine : Bool} {s : State} {a : Word} {n : Nat} (h : DwordsReady inLine s a (n + 1)) :
    if inLine then Fetchable s a else Readable s a 4 := by
  cases inLine with
  | true => simpa [DwordsReady] using h 0 (Nat.succ_pos n)
  | false => simpa using readable_of_le h (k := 4) (by omega)

theorem dwordsReady_tail {inLine : Bool} {s t : State} {a : Word} {n : Nat} (h : DwordsReady inLine s a (n + 1))
    (hf : LoadFrame inLine s t) (hp : inLine = true → Prefetched t) : DwordsReady inLine t (a + 4#32) n := by
  cases inLine with
  | true =>
    intro k hk
    have hnext := hf.fetchable (hp rfl) (h (k + 1) (by omega))
    rwa [Nat.mul_add, Nat.add_comm, BitVec.ofNat_add, ← BitVec.add_assoc] at hnext
  | false =>
    have hrest : Readable s (a + 4#32) (4 * n) := by simpa [Nat.mul_add] using readable_suffix h 4
    exact hf.readable hrest

/-- After an in-line dword the prefetch register still holds what memory holds (20_memory.md R77). -/
theorem inlineRead_dword_prefetched (c : Ctx) {s t : State} {a v : Word} (h : Plain s) (hf : Fetchable s a)
    (hdone : inlineRead c none a 4 s = .done v t) : Prefetched t := by
  obtain ⟨s₁, hread, hpre, hlow⟩ := fetchHalf_plain
    (fun single s' => raiseData c (dataFault c .read a false 0#32 single) s') h hf.even
    (readable_of_le hf.readable (by decide)) (by simpa using hf.fresh 0 (by decide)) hf.prefetched
  obtain ⟨s₂, -, hpre₂, hhigh⟩ := fetchHalf_plain
    (fun single s' => raiseData c (dataFault c .read a true (((loadBytes s.mem a 2).setWidth 16).setWidth 32) single) s')
    (readOnly_plain hread h) (even_add_two hf.even) (readOnly_readable hread (readable_suffix hf.readable 2))
    ((staleFetch_of_stores (readOnly_stores hread) _).trans (by simpa using hf.fresh 1 (by decide))) hpre
  simp only [inlineRead, if_true, inlineHalf, inlineSecond, hlow, hhigh, Act.andThen, Act.done.injEq] at hdone
  exact hdone.2 ▸ hpre₂

theorem readOperand_dword (c : Ctx) {inLine : Bool} {s : State} {a : Word} (h : Plain s)
    (hb : if inLine then Fetchable s a else Readable s a 4) :
    ∃ t, ReadOnly inLine s t ∧ (inLine = true → Prefetched t) ∧
      readOperand c inLine none a 4 s = .done (loadBytes s.mem a 4) t := by
  obtain ⟨t, hread, hdone⟩ := readOperand_plain c (.inr rfl) h hb
  refine ⟨t, hread, ?_, hdone⟩
  rintro rfl
  exact inlineRead_dword_prefetched c h hb hdone

/-- R(n-1) to R0 are the dwords at ascending addresses, no other register changes. -/
theorem loadRegs_loads (c : Ctx) (inLine : Bool) (n : Nat) : ∀ {a : Word} {s : State}, n ≤ 15 → Plain s →
    DwordsReady inLine s a n → ∃ t, LoadFrame inLine s t ∧
      (∀ k : RegNo, readReg k t =
        if k.toNat < n then loadBytes s.mem (a + BitVec.ofNat 32 (4 * (n - 1 - k.toNat))) 4 else readReg k s) ∧
      loadRegs c inLine n none a s = .done () t := by
  induction n with
  | zero => exact fun {_ s} _ _ _ => ⟨s, .refl inLine s, by simp, rfl⟩
  | succ n ih =>
    intro a s hn h hready
    obtain ⟨s₁, hread, hpre, hdone⟩ := readOperand_dword { c with word := movemWord c.word n } h
      (dwordsReady_head hready)
    have hframe := (LoadFrame.of_readOnly hread).trans (.writeReg inLine (BitVec.ofNat 4 n) (loadBytes s.mem a 4) s₁)
    obtain ⟨t, hrest, hregs, hload⟩ := ih (a := a + 4#32) (by omega) (hframe.plain h)
      (dwordsReady_tail hready hframe fun hi => by simpa [Prefetched] using hpre hi)
    refine ⟨t, hframe.trans hrest, fun k => ?_, ?_⟩
    · rw [hregs, hframe.mem]
      rcases Nat.lt_trichotomy k.toNat n with hlt | heq | hgt
      · rw [if_pos hlt, if_pos (by omega), descending_address_succ a hlt, Nat.add_sub_cancel]
      · have hne : BitVec.ofNat 4 n ≠ 15#4 := fun h15 => by
          have := congrArg BitVec.toNat h15
          simp only [BitVec.toNat_ofNat] at this
          omega
        rw [if_neg (by omega), if_pos (by omega), regNo_eq_ofNat heq, readReg_writeReg_same hne]
        simp [show n % 16 = n by omega]
      · have hne : k ≠ BitVec.ofNat 4 n := fun hk => by
          rw [hk, BitVec.toNat_ofNat] at hgt
          omega
        rw [if_neg (by omega), if_neg (by omega), readReg_writeReg_other hne, readReg_readOnly hread]
    · simp only [loadRegs, hdone, Act.andThen, hload]

/-! ## MOVEM from memory -/

theorem movemRefusal_load_none {d : RegNo} {md : Bool} {r : RegNo} {s : State} (hre : s.resume = none)
    (hform : s.delay.isSome = true → s.prefixAddr = none ∧ isInline md r s = false)
    (hassign : md = true → r = 15#4 → s.prefixAddr = none) (hloaded : md = true → d.toNat < r.toNat)
    (hpc : d = 15#4 → s.delay = none) : movemRefusal true d md r s = none := by
  have hnot : ¬ (true && md && decide (r.toNat ≤ d.toNat)) = true := by
    intro h
    simp only [Bool.true_and, Bool.and_eq_true, decide_eq_true_eq] at h
    have := hloaded h.1
    omega
  have hslot : ¬ (true && d == 15#4 && s.delay.isSome) = true := by
    intro h
    simp only [Bool.true_and, Bool.and_eq_true, beq_iff_eq] at h
    simp [hpc h.1] at h
  rw [movemRefusal, if_neg hnot, if_neg (by simp [restartCycle, hre]), if_neg hslot, operandRefusal_none hform hassign]

/-- MOVEM to registers below PC. -/
theorem movemLoadOp_ready (word : Half) {d : RegNo} {md : Bool} {r : RegNo} {s : State} (h : Plain s)
    (hre : s.resume = none) (hslot : SlotOk s) (href : movemRefusal true d md r s = none) (hd : d ≠ 15#4)
    (hready : DwordsReady (isInline md r s) s (operandAddress r s) (d.toNat + 1)) :
    ∃ s₁, RegistersLoaded (isInline md r s) d (operandAddress r s) s s₁ ∧
      movemLoadOp word d md r s = .next (finished (endAddress md r (4 * (d.toNat + 1)) s) false false
        (updateAddress md r (4 * (d.toNat + 1)) (operandAddress r s) s₁)) := by
  have hcycle : restartCycle s = none := by simp [restartCycle, hre]
  obtain ⟨s₁, hframe, hregs, hload⟩ := loadRegs_loads
    { word := word, endPc := endAddress md r (4 * (d.toNat + 1)) s } _ (d.toNat + 1)
    (toNat_lt_of_ne_pc hd) h hready
  refine ⟨s₁, ⟨hframe.frame, fun k _ => ?_, hframe.otherStack, hframe.prefetch, hframe.breakpoint⟩, ?_⟩
  · simpa only [Nat.lt_succ_iff, Nat.add_sub_cancel] using hregs k
  · simp only [movemLoadOp, href, if_neg hd, hcycle, hload, Act.finish]
    exact complete_plain _ _ _ (slotOk_of_delay ((updateAddress_delay ..).trans hframe.delay) hslot)

/-- MOVEM with PC the first dword, which takes effect at the end. -/
theorem movemLoadOp_pc (word : Half) {r : RegNo} {s : State} (h : Plain s) (hre : s.resume = none) (hd : s.delay = none)
    (hr : Readable s (operandAddress r s) 64) (ht : (loadBytes s.mem (operandAddress r s) 4).getLsbD 0 = false) :
    ∃ s₁, RegistersLoaded false 15#4 (operandAddress r s) s s₁ ∧
      movemLoadOp word 15#4 false r s = .next (jumped (loadBytes s.mem (operandAddress r s) 4) false s₁) := by
  have href : movemRefusal true 15#4 false r s = none :=
    movemRefusal_load_none hre (by simp [hd]) nofun nofun fun _ => hd
  have hcycle : restartCycle s = none := by simp [restartCycle, hre]
  have hready : DwordsReady false s (operandAddress r s) (15 + 1) := hr
  obtain ⟨s₁, hread, hpre, hfirst⟩ := readOperand_dword
    { word := movemWord word 15, endPc := endAddress false r (4 * ((15#4).toNat + 1)) s } h (dwordsReady_head hready)
  have hframe₁ := LoadFrame.of_readOnly hread
  obtain ⟨s₂, hframe₂, hregs, hload⟩ := loadRegs_loads
    { word := word, endPc := endAddress false r (4 * ((15#4).toNat + 1)) s, pcLoaded := true } false 15 le_rfl
    (hframe₁.plain h) (dwordsReady_tail hready hframe₁ hpre)
  have hframe := hframe₁.trans hframe₂
  refine ⟨s₂, ⟨hframe.frame, fun k hk => ?_, hframe.otherStack, hframe.prefetch, hframe.breakpoint⟩, ?_⟩
  · have hlt := toNat_lt_of_ne_pc hk
    rw [hregs, hframe₁.mem, if_pos hlt, descending_address_succ _ hlt]
    exact (if_pos hlt.le).symm
  · simp only [movemLoadOp, href, if_true, isInline_indirect, hcycle, hfirst, hload, Act.finish]
    exact complete_jump _ _ _ (hframe.delay.trans hd) ht

/-! ## What storing registers may change -/

/-- `RegistersStored` without the bytes stored: what any number of stores may change. -/
structure StoreFrame (s t : State) : Prop where
  /-- Nothing else changes. -/
  frame : t = { s with mem := t.mem, stores := t.stores, hwbreakPending := t.hwbreakPending }
  /-- A breakpoint hit is latched only if B is set. -/
  breakpoint : s.flags.b = false → t.hwbreakPending = s.hwbreakPending

theorem StoreFrame.refl (s : State) : StoreFrame s s := ⟨rfl, fun _ => rfl⟩

theorem StoreFrame.trans {s t u : State} (h : StoreFrame s t) (h' : StoreFrame t u) : StoreFrame s u where
  frame := by
    rw [h'.frame]
    dsimp only
    rw [h.frame]
  breakpoint := fun hb => (h'.breakpoint (by rw [h.frame]; exact hb)).trans (h.breakpoint hb)

theorem StoreFrame.of_writtenAt {a v : Word} {n : Nat} {s t : State} (h : WrittenAt a n v s t) : StoreFrame s t :=
  ⟨h.1, h.2.1⟩

theorem StoreFrame.plain {s t : State} (h : StoreFrame s t) (hp : Plain s) : Plain t := by
  rw [h.frame]
  exact ⟨hp.mmuOff, hp.testOff, hp.noSingleStep, hp.noWindows, hp.noOutside⟩

theorem StoreFrame.writable {s t : State} (h : StoreFrame s t) {a : Word} {n : Nat} (hw : Writable s a n) :
    Writable t a n := by
  rw [h.frame]
  exact hw

theorem StoreFrame.readReg_eq {s t : State} (h : StoreFrame s t) (k : RegNo) : readReg k t = readReg k s := by
  rw [h.frame]
  rfl

theorem StoreFrame.delay {s t : State} (h : StoreFrame s t) : t.delay = s.delay := by rw [h.frame]

/-! ## Dwords that MOVEM writes -/

theorem loadBytes_eq_joinBytes (m : List Host.Cell) (a : Word) (n : Nat) :
    loadBytes m a n = joinBytes (fun i => memRead m (physIndex a i)) n := by
  induction n with
  | zero => rfl
  | succ n ih => rw [loadBytes, joinBytes, ih]

/-- A datum depends on its own bytes alone. -/
theorem loadBytes_congr {m m' : List Host.Cell} {a : Word} {n : Nat}
    (h : ∀ i, i < n → memRead m (physIndex a i) = memRead m' (physIndex a i)) : loadBytes m a n = loadBytes m' a n := by
  rw [loadBytes_eq_joinBytes, loadBytes_eq_joinBytes, joinBytes_congr h]

/-- A dword stored is the dword loaded. -/
theorem loadBytes_of_storedAt {a v : Word} {m m' : List Host.Cell} (h : StoredAt a 4 v m m') : loadBytes m' a 4 = v := by
  rw [loadBytes_eq_joinBytes, joinBytes_congr fun i hi => (h.1 i hi).trans (byte_of_shift v i).symm,
    (joinBytes_of_bytes v).1]

theorem dataWrite_keeps_wf {c : Ctx} {restart : Option RestartCycle} {a v : Word} {n : Nat} {s t : State}
    (hdone : dataWrite c restart a n v s = .done () t) (hm : memWf s.mem = true) : memWf t.mem = true := by
  have hduring : During s t := by
    have hruns := dataWrite_runs c restart a n v s
    rwa [hdone] at hruns
  exact hduring.memory hm

/-- The dwords at ascending addresses are R(n-1) to R0, no other byte changes. -/
theorem storeRegs_stores (c : Ctx) (n : Nat) : ∀ {a : Word} {s : State}, n ≤ 16 → Plain s → memWf s.mem = true →
    Writable s a (4 * n) → ∃ t, StoreFrame s t ∧
      (∀ k : RegNo, k.toNat < n → loadBytes t.mem (a + BitVec.ofNat 32 (4 * (n - 1 - k.toNat))) 4 = readReg k s) ∧
      (∀ x, (∀ i, i < 4 * n → x ≠ physIndex a i) → memRead t.mem x = memRead s.mem x) ∧
      storeRegs c n none a s = .done () t := by
  induction n with
  | zero => exact fun {_ s} _ _ _ _ => ⟨s, .refl s, nofun, fun _ _ => rfl, rfl⟩
  | succ n ih =>
    intro a s hn h hm hw
    obtain ⟨s₁, hwritten, hdone⟩ := dataWrite_plain { c with word := movemWord c.word n }
      (readReg (BitVec.ofNat 4 n) s) h hm le_rfl fun i hi => hw i (by omega)
    have hframe := StoreFrame.of_writtenAt hwritten
    obtain ⟨-, -, hstored, -⟩ := hwritten
    have hw₁ : Writable s₁ (a + BitVec.ofNat 32 4) (4 * n) := hframe.writable fun i hi => by
      rw [physIndex_add]
      exact hw _ (by omega)
    obtain ⟨t, hrest, hregs, hothers, hstore⟩ := ih (by omega) (hframe.plain h) (dataWrite_keeps_wf hdone hm) hw₁
    refine ⟨t, hframe.trans hrest, fun k hk => ?_, fun x hx => ?_, ?_⟩
    · rcases Nat.lt_or_ge k.toNat n with hlt | hge
      · rw [Nat.add_sub_cancel, ← descending_address_succ a hlt, hregs k hlt, hframe.readReg_eq]
      · have heq : k.toNat = n := by omega
        have hkept : ∀ i, i < 4 → memRead t.mem (physIndex a i) = memRead s₁.mem (physIndex a i) := fun i hi =>
          hothers _ fun j hj he => by
            rw [physIndex_add] at he
            have := physIndex_injective (show i < physSize by unfold physSize; omega)
              (show 4 + j < physSize by unfold physSize; omega) he
            omega
        rw [heq, Nat.add_sub_cancel, Nat.sub_self, Nat.mul_zero, BitVec.add_zero, loadBytes_congr hkept,
          loadBytes_of_storedAt hstored, regNo_eq_ofNat heq]
    · rw [hothers x fun i hi => by rw [physIndex_add]; exact hx _ (by omega)]
      exact hstored.2 x fun i hi => hx i (by omega)
    · simp only [storeRegs, hdone, Act.andThen]
      exact hstore

/-! ## MOVEM to memory -/

theorem movemStoreOp_ready (word : Half) {r : RegNo} {md : Bool} {d : RegNo} {s : State}
    (h : StoreReady md d (4 * (r.toNat + 1)) s) (hx : storeSuppressed s = false) :
    ∃ s₁, RegistersStored r (operandAddress d s) s s₁ ∧
      movemStoreOp word r md d s = .next (finished (endAddress md d (4 * (r.toNat + 1)) s) false false
        (updateAddress md d (4 * (r.toNat + 1)) (operandAddress d s) s₁)) := by
  have hcycle : restartCycle s = none := by simp [restartCycle, h.noRestart]
  have href : movemRefusal false r md d s = none := by
    simp [movemRefusal, hcycle, operandRefusal_none h.slotForm h.noAssign]
  obtain ⟨s₁, hframe, hregs, hothers, hstore⟩ := storeRegs_stores
    { word := word, endPc := endAddress md d (4 * (r.toNat + 1)) s } (r.toNat + 1) r.isLt h.plain h.memory h.bytes
  refine ⟨s₁, ⟨hframe.frame, fun k hk => ?_, hothers, hframe.breakpoint⟩, ?_⟩
  · simpa only [Nat.add_sub_cancel] using hregs k (Nat.lt_succ_of_le hk)
  · simp only [movemStoreOp, href, hx, Bool.false_eq_true, if_false, hcycle, hstore, Act.finish]
    exact complete_plain _ _ _ (slotOk_of_delay ((updateAddress_delay ..).trans hframe.delay) h.slot)

/-- Settles O52. -/
theorem multipleMoves : Obligations.MultipleMoves := by
  unfold Obligations.MultipleMoves
  refine ⟨⟨fun s d r md h hre hslot hform hassign hloaded hd hb => ?load, fun s r h hre hd hr ht => ?loadPc⟩,
    fun s d r md h hx => ?store⟩
  case load =>
    have href := movemRefusal_load_none hre hform hassign hloaded fun hpc => absurd hpc hd
    have hready : DwordsReady (isInline md r s) s (operandAddress r s) (d.toNat + 1) := by
      simpa only [DwordsReady, Nat.lt_succ_iff] using hb
    exact movemLoadOp_ready _ h hre hslot href hd hready
  case loadPc => exact movemLoadOp_pc _ h hre hd hr ht
  case store => exact movemStoreOp_ready _ h hx

end Sys2Proof.Proofs
end

section
/-! O31, O32, O33, O38, O41, O42 and O43: arithmetic, comparison and logic on two operands. First the calculations that no
earlier claim is about, in the words of the claims, then the memory forms by what they write, then the claims. -/

namespace Sys2Proof.Proofs

-- Declarations are checked one after another: many at once need more threads than the memory limit of the check allows.
set_option Elab.async false

open Sys2Proof.Machine Sys2Proof.Laws

/-! ## Calculations of BOUND, ADDI, DSTEP, MSTEP and NEG (42_arithmetic.md R286, R290, R295 to R297; log 14) -/

theorem calcBound_eq_boundOf (f : Flags) (a b : Word) : calcBound f a b = boundOf f a b := by
  rw [calcBound, toNat_carryIn, boundOf, plainResult_eq_setNZ00]

theorem calcBound_unsigned (z : Size) (f : Flags) (a v : Word) :
    calcBound f a (truncSize z v) = boundOf f a (zeroExtended z v) := by
  rw [zeroExtended_eq_truncSize, calcBound_eq_boundOf]

/-- The index is scaled by 1, 2 or 4, a shift by `k`. -/
theorem calcAddi_eq_patternAt (k : Nat) (f : Flags) (a b : Word) :
    calcAddi k f a b = (patternAt .dword (a.toNat + 2 ^ k * b.toNat + carryOf f : Nat), f) := by
  have hsum : patternAt .dword (a.toNat + 2 ^ k * b.toNat + carryOf f : Nat) = a + b <<< k + carryIn f := by
    apply patternAt_dword_eq
    rw [BitVec.toNat_add, BitVec.toNat_add, BitVec.toNat_shiftLeft, toNat_carryIn, Nat.shiftLeft_eq, Nat.mul_comm b.toNat]
    omega
  rw [hsum, calcAddi]

theorem toNat_shiftLeft_one (a : Word) : (a <<< 1).toNat = 2 * a.toNat % 2 ^ 32 := by
  rw [BitVec.toNat_shiftLeft, Nat.shiftLeft_eq, Nat.mul_comm, Nat.pow_one]

theorem calcDstep_eq_divideStepOf (f : Flags) (a b : Word) : calcDstep f a b = divideStepOf f a b := by
  have ht := toNat_shiftLeft_one a
  have hr : patternAt .dword (if b.toNat + carryOf f ≤ 2 * a.toNat % 2 ^ 32
        then ((2 * a.toNat % 2 ^ 32 : Nat) : Int) - b.toNat - carryOf f else ((2 * a.toNat % 2 ^ 32 : Nat) : Int)) =
      if b.toNat + (carryIn f).toNat ≤ (a <<< 1).toNat then a <<< 1 - b - carryIn f else a <<< 1 := by
    rw [toNat_carryIn, ht]
    split <;> apply patternAt_dword_eq
    · rw [BitVec.toNat_sub, BitVec.toNat_sub, ht, toNat_carryIn]
      have := b.isLt
      have := carryOf_le_one f
      omega
    · rw [ht]
      omega
  simp only [divideStepOf, hr, plainResult_eq_setNZ00, calcDstep]

theorem calcMstep_eq_multiplyStepOf (f : Flags) (a b : Word) : calcMstep f a b = multiplyStepOf f a b := by
  have ht := toNat_shiftLeft_one a
  have hr : patternAt .dword (if f.n then 2 * a.toNat + b.toNat + carryOf f else (2 * a.toNat : Nat)) =
      if f.n then a <<< 1 + b + carryIn f else a <<< 1 := by
    split <;> apply patternAt_dword_eq
    · rw [BitVec.toNat_add, BitVec.toNat_add, ht, toNat_carryIn]
      omega
    · rw [ht]
      omega
  rw [multiplyStepOf, hr, plainResult_eq_setNZ00, calcMstep]

theorem calcNeg_eq_differenceOf (m : Size) (f : Flags) (d v : Word) :
    calcNeg m f d (truncSize m v) = differenceOf m f 0#32 v := by
  have hzero : truncSize m 0#32 = 0#32 := by cases m <;> rfl
  rw [← calcSub_eq_differenceOf, hzero, calcNeg]

/-! ## Bit tests (43_logic_shift_bit.md R355, R356; log 35) -/

/-- The bits from `n` down are 0 when nothing is left of them at the top of the dword. -/
theorem shiftLeft_top_eq_zero_iff (a : Word) {n : Nat} (hn : n < 32) :
    a <<< (31 - n) = 0#32 ↔ a.toNat % 2 ^ (n + 1) = 0 := by
  have hpow : 2 ^ 32 = 2 ^ (n + 1) * 2 ^ (31 - n) := by rw [← Nat.pow_add, show n + 1 + (31 - n) = 32 by omega]
  rw [← BitVec.toNat_inj, BitVec.toNat_shiftLeft, Nat.shiftLeft_eq, hpow, Nat.mul_mod_mul_right]
  simp

theorem calcBtst_eq_bitTestOf (f : Flags) (a b : Word) :
    (calcBtst f a b).2 = bitTestOf f a (b.toNat % 32) := by
  have hcount : (b &&& 31#32).toNat = b.toNat % 32 := by
    rw [BitVec.toNat_and]
    exact Nat.and_two_pow_sub_one_eq_mod b.toNat 5
  have hbit : a.getLsbD (b.toNat % 32) = decide (a.toNat / 2 ^ (b.toNat % 32) % 2 = 1) := by
    rw [← BitVec.testBit_toNat, Nat.testBit_eq_decide_div_mod_eq]
  have hzero : (a <<< (31 - b.toNat % 32) == 0#32) = decide (a.toNat % 2 ^ (b.toNat % 32 + 1) = 0) := by
    rw [Bool.eq_iff_iff, beq_iff_eq, decide_eq_true_eq, shiftLeft_top_eq_zero_iff a (Nat.mod_lt _ (by decide))]
  simp only [calcBtst, bitTestOf, hcount, hbit, hzero, zeroFlag]

theorem calcBtst_quick (f : Flags) (a : Word) (c : BitVec 5) :
    (calcBtst f a (c.setWidth 32)).2 = bitTestOf f a c.toNat := by
  have hc : (c.setWidth 32 : Word).toNat % 32 = c.toNat := by
    have := c.isLt
    rw [BitVec.toNat_setWidth]
    omega
  rw [calcBtst_eq_bitTestOf, hc]

/-! ## Products (42_arithmetic.md R313, R314) -/

/-- A product is the 64-bit pattern of an exact integer. -/
theorem productSigned_eq_ofInt (m : Size) (a b : Word) :
    productSigned m a b = BitVec.ofInt 64 (signedAt m a * signedAt m b) := by
  have extended (v : Word) : (sextSize m v).signExtend 64 = BitVec.ofInt 64 (signedAt m v) := by
    rw [← toInt_sextSize, ← BitVec.toInt_signExtend_of_le (show 32 ≤ 64 by decide), BitVec.ofInt_toInt]
  rw [productSigned, extended, extended, BitVec.ofInt_mul]

theorem productUnsigned_eq_ofInt (m : Size) (a b : Word) :
    productUnsigned m a b = BitVec.ofInt 64 (unsignedAt m a * unsignedAt m b : Nat) := by
  rw [productUnsigned, BitVec.ofInt_natCast, BitVec.ofNat_mul, ← toNat_truncSize, ← toNat_truncSize,
    BitVec.ofNat_toNat, BitVec.ofNat_toNat]

theorem signedAt_bounds (m : Size) (v : Word) : -2 ^ 31 ≤ signedAt m v ∧ signedAt m v < 2 ^ 31 := by
  rw [← toInt_sextSize]
  exact ⟨BitVec.le_toInt _, BitVec.toInt_lt⟩

theorem signed_product_bounds (m : Size) (a b : Word) :
    -2 ^ 63 ≤ signedAt m a * signedAt m b ∧ signedAt m a * signedAt m b < 2 ^ 63 := by
  have ha := signedAt_bounds m a
  have hb := signedAt_bounds m b
  have h : |signedAt m a * signedAt m b| ≤ 2 ^ 31 * 2 ^ 31 := by
    rw [abs_mul]
    exact mul_le_mul (abs_le.2 ⟨ha.1, ha.2.le⟩) (abs_le.2 ⟨hb.1, hb.2.le⟩) (abs_nonneg _) (by decide)
  have := abs_le.1 h
  omega

theorem unsigned_product_lt (m : Size) (a b : Word) : unsignedAt m a * unsignedAt m b < 2 ^ 64 := by
  rw [← toNat_truncSize, ← toNat_truncSize]
  calc (truncSize m a).toNat * (truncSize m b).toNat
      < 2 ^ 32 * 2 ^ 32 := Nat.mul_lt_mul'' (truncSize m a).isLt (truncSize m b).isLt
    _ = 2 ^ 64 := by decide

section
variable (p : Int)

theorem toNat_ofInt_64 : ((BitVec.ofInt 64 p).toNat : Int) = p % 2 ^ 64 := by
  rw [BitVec.toNat_ofInt]
  omega

theorem productLow_ofInt : productLow (BitVec.ofInt 64 p) = patternAt .dword p := by
  have hp := toNat_ofInt_64 p
  refine (patternAt_dword_eq ?_).symm
  rw [productLow, BitVec.toNat_setWidth]
  omega

theorem productHigh_ofInt : productHigh (BitVec.ofInt 64 p) = patternAt .dword (p / 2 ^ 32) := by
  have hp := toNat_ofInt_64 p
  refine (patternAt_dword_eq ?_).symm
  rw [productHigh, BitVec.extractLsb'_toNat, Nat.shiftRight_eq_div_pow]
  omega

/-- The sign of a dword pattern. -/
theorem msb_patternAt_dword : (patternAt .dword p).msb = decide (2 ^ 31 ≤ p % 2 ^ 32) := by
  have hp := toNat_patternAt .dword p
  rw [BitVec.msb_eq_decide, decide_eq_decide]
  simp only [widthOf] at hp
  omega

theorem patternAt_dword_eq_iff (v : Word) : patternAt .dword p = v ↔ p % 2 ^ 32 = v.toNat := by
  refine ⟨fun h => ?_, patternAt_dword_eq⟩
  rw [← h]
  exact (toNat_patternAt .dword p).symm

theorem ofInt_64_eq_zero (hlow : -2 ^ 63 ≤ p) (hhigh : p < 2 ^ 64) :
    (BitVec.ofInt 64 p == 0#64) = decide (p = 0) := by
  have hp := toNat_ofInt_64 p
  rw [Bool.eq_iff_iff, beq_iff_eq, decide_eq_true_eq, ← BitVec.toNat_inj]
  simp only [BitVec.toNat_ofNat]
  omega

/-- The flags of MULS: MOF is not the sign extension of Rd when the product needs more than 32 bits (R313). -/
theorem mulsFlags_ofInt (hlow : -2 ^ 63 ≤ p) (hhigh : p < 2 ^ 63) (f : Flags) :
    mulsFlags (BitVec.ofInt 64 p) f =
      productFlags (decide (p < 0)) (decide (p = 0)) (decide (p < -2 ^ 31 ∨ 2 ^ 31 ≤ p)) f := by
  have hn : decide (2 ^ 31 ≤ p / 2 ^ 32 % 2 ^ 32) = decide (p < 0) := decide_eq_decide.2 (by omega)
  have hv : (patternAt .dword (p / 2 ^ 32) != if 2 ^ 31 ≤ p % 2 ^ 32 then 0xFFFFFFFF#32 else 0#32) =
      decide (p < -2 ^ 31 ∨ 2 ^ 31 ≤ p) := by
    rw [Bool.eq_iff_iff, bne_iff_ne, decide_eq_true_eq, Ne, patternAt_dword_eq_iff]
    split <;> simp only [BitVec.toNat_ofNat] <;> omega
  simp only [mulsFlags, productHigh_ofInt, productLow_ofInt, msb_patternAt_dword, decide_eq_true_eq, hn, hv,
    ofInt_64_eq_zero p hlow (by omega), zeroFlag, productFlags]

end

/-- The flags of MULU: MOF is not 0 when the product needs more than 32 bits (R314). -/
theorem muluFlags_ofInt {p : Nat} (hp : p < 2 ^ 64) (f : Flags) :
    muluFlags (BitVec.ofInt 64 p) f =
      productFlags (decide (2 ^ 63 ≤ p)) (decide (p = 0)) (decide (2 ^ 32 ≤ p)) f := by
  have hn : decide (2 ^ 31 ≤ (p : Int) / 2 ^ 32 % 2 ^ 32) = decide (2 ^ 63 ≤ p) := decide_eq_decide.2 (by omega)
  have hz : (BitVec.ofInt 64 p == 0#64) = decide (p = 0) :=
    (ofInt_64_eq_zero p (by omega) (by omega)).trans (decide_eq_decide.2 (by omega))
  have hv : (patternAt .dword (p / 2 ^ 32) != 0#32) = decide (2 ^ 32 ≤ p) := by
    rw [Bool.eq_iff_iff, bne_iff_ne, decide_eq_true_eq, Ne, patternAt_dword_eq_iff]
    simp only [BitVec.toNat_ofNat]
    omega
  simp only [muluFlags, productHigh_ofInt, msb_patternAt_dword, hn, hv, hz, zeroFlag, productFlags]

/-- MULS and MULU once the product and its flags are known, the destination not PC. -/
theorem mulReg_withProduct {product : Word → Word → BitVec 64} {flags : BitVec 64 → Flags → Flags} {d r : RegNo}
    {s : State} (ha : s.prefixAddr = none) (hslot : SlotOk s) (hd : d ≠ 15#4) {p : Int} {fl : Flags}
    (hp : product (readReg r s) (readReg d s) = BitVec.ofInt 64 p) (hfl : flags (BitVec.ofInt 64 p) s.flags = fl) :
    mulReg product flags d r s = .next (finished (pcPlus2 s) false false (withProduct d p fl s)) := by
  have hno : ¬ s.prefixAddr.isSome = true := by simp [ha]
  simp only [mulReg, if_neg hno, if_neg hd, hp, hfl, productLow_ofInt, productHigh_ofInt, writeReg_sregs]
  exact complete_plain _ _ _ (slotOk_of_delay (writeReg_delay ..) hslot)

/-! ## Memory forms whose destination is not PC -/

section
variable {f : AluForm} {g : Calc} {d : RegNo} {md : Bool} {r : RegNo} {s : State} {x : Word × Flags}

/-- Forms without a fixed Operand1 stop only where PC is a destination or is read beside in-line data. -/
theorem memoryRefusal_registers_none (hform : f.threeOp = true ∨ f.dest.writes = false)
    (hpc : f.dest.writes = true → f.pcDest = false → d ≠ 15#4)
    (hinline : f.dest.reads = true → d = 15#4 → isInline md r s = false)
    (hdest : f.dest.writes = true → memoryDest f d md r s ≠ 15#4) : memoryRefusal f d md r s = none := by
  have hdiffers : ¬ (f.dest.writes && !f.threeOp && s.prefixAddr.isSome && !md && r != d) = true := by
    rcases hform with h | h <;> simp [h]
  have hunsupported : ¬ (f.dest.writes && !f.pcDest && d == 15#4) = true := by simpa using hpc
  have hread : ¬ (f.dest.reads && d == 15#4 && isInline md r s) = true := by simpa using hinline
  rw [memoryRefusal, if_neg hdiffers, if_neg hunsupported, if_neg hread, destRefusal_none hdest]

/-- Memory forms with a 3-operand form, whose calculation gives `x`. -/
theorem aluMem_threeOperandEnd (hw : f.dest.writes = true) (ht : f.threeOp = true) (hwin : f.window = false) (word : Half)
    (h : OperandReady md r (sizeBytes f.access) s) (hd : threeOperandDest d md r s ≠ 15#4)
    (hpc : f.pcDest = false → d ≠ 15#4) (hinline : d = 15#4 → isInline md r s = false)
    (hx : g s.flags (truncSize f.size (readReg d s)) (f.source (memoryValue r (sizeBytes f.access) s)) = x) :
    ∃ s₁, ReadOnly (isInline md r s) s s₁ ∧ aluMem f g word d md r s =
      .next (operandEnd f.size (sizeBytes f.access) (threeOperandDest d md r s) md r x s s₁) := by
  have hdest : memoryDest f d md r s = threeOperandDest d md r s := by rw [memoryDest, ht]; rfl
  have href := memoryRefusal_registers_none (.inl ht) (fun _ => hpc) (fun _ => hinline) fun _ => hdest ▸ hd
  obtain ⟨s₁, hread, hexec⟩ := aluMem_ready f g word h href fun _ => hdest ▸ hd
  refine ⟨s₁, hread, ?_⟩
  rw [hexec, hx, hwin, hdest, aluResult, if_pos hw, operandEnd]

/-- Memory forms that write flags only. -/
theorem aluMem_operandFlagsEnd (hw : f.dest.writes = false) (hwin : f.window = false) (word : Half)
    (h : OperandReady md r (sizeBytes f.access) s)
    (hinline : f.dest.reads = true → d = 15#4 → isInline md r s = false)
    (hx : g s.flags (truncSize f.size (readReg d s)) (f.source (memoryValue r (sizeBytes f.access) s)) = x) :
    ∃ s₁, ReadOnly (isInline md r s) s s₁ ∧ aluMem f g word d md r s =
      .next (operandFlagsEnd (sizeBytes f.access) md r x.2 s s₁) := by
  have hno : ¬ f.dest.writes = true := by simp [hw]
  have href := memoryRefusal_registers_none (.inr hw) (fun h => absurd h hno) hinline fun h => absurd h hno
  obtain ⟨s₁, hread, hexec⟩ := aluMem_ready f g word h href fun h => absurd h hno
  refine ⟨s₁, hread, ?_⟩
  rw [hexec, hx, hwin, aluResult, if_neg hno, operandFlagsEnd]

end

/-- A memory operand has no bits beyond its size. -/
theorem truncSize_memoryValue (z : Size) (r : RegNo) (s : State) :
    truncSize z (memoryValue r (sizeBytes z) s) = memoryValue r (sizeBytes z) s := by
  have hsize : sizeBytes z ≤ 4 ∧ 2 ^ (8 * sizeBytes z) = 2 ^ widthOf z := by cases z <;> decide
  have hlt := hsize.2 ▸ loadBytes_lt s.mem (operandAddress r s) (sizeBytes z) hsize.1
  exact BitVec.eq_of_toNat_eq ((toNat_truncSize ..).trans (Nat.mod_eq_of_lt hlt))

/-! ## O31 to O33: quick and register forms -/

section
variable {g : Calc} {d r : RegNo} {s : State} {x : Word × Flags} (ha : s.prefixAddr = none)
  (hslot : SlotOk s)
include ha hslot

theorem aluReg_registerEnd (f : AluForm) (hw : f.dest.writes = true) (hwin : f.window = false) (hd : d ≠ 15#4)
    (hx : g s.flags (truncSize f.size (readReg d s)) (f.source (readReg r s)) = x) :
    aluReg f g d r s = .next (registerEnd f.size d x s) :=
  aluCore_registerEnd hw hwin ha hslot hd hx

/-- Comparisons and bit tests, of which the flags alone count. -/
theorem aluCore_compare {m : Size} {src : Word} {fl : Flags}
    (hfl : (g s.flags (truncSize m (readReg d s)) src).2 = fl) :
    aluCore (formCompare m) g d src s = .next (flagsEnd fl s) :=
  hfl ▸ aluCore_flagsEnd rfl rfl ha hslot rfl

end

/-- Settles O31: each calculation is the sum or the difference of the claim. -/
theorem addSubtractRegisters : Obligations.AddSubtractRegisters := by
  unfold Obligations.AddSubtractRegisters
  intro s d r j ha hslot hd
  have quick {g : Calc} {src : Word} {x : Word × Flags} (hx : g s.flags (readReg d s) src = x) :
      aluCore (formUpdate .dword) g d src s = .next (registerEnd .dword d x s) :=
    aluCore_registerEnd (f := formUpdate .dword) rfl rfl ha hslot hd hx
  have reg (f : AluForm) (hw : f.dest.writes = true) (hwin : f.window = false) {g : Calc} {x : Word × Flags}
      (hx : g s.flags (truncSize f.size (readReg d s)) (f.source (readReg r s)) = x) :=
    aluReg_registerEnd ha hslot f hw hwin hd hx
  exact ⟨quick (calcAdd_dword_eq_sumOf ..),
    quick (calcSub_dword_eq_differenceOf ..),
    reg (formSized .byte) rfl rfl (calcAdd_eq_sumOf .byte ..),
    reg (formSized .word) rfl rfl (calcAdd_eq_sumOf .word ..),
    reg (formSized .dword) rfl rfl (calcAdd_eq_sumOf .dword ..),
    reg (formUnsigned .byte) rfl rfl (calcAdd_unsigned .byte ..),
    reg (formUnsigned .word) rfl rfl (calcAdd_unsigned .word ..),
    reg (formSigned .byte) rfl rfl (calcAdd_signed .byte ..),
    reg (formSigned .word) rfl rfl (calcAdd_signed .word ..),
    reg (formSized .byte) rfl rfl (calcSub_eq_differenceOf .byte ..),
    reg (formSized .word) rfl rfl (calcSub_eq_differenceOf .word ..),
    reg (formSized .dword) rfl rfl (calcSub_eq_differenceOf .dword ..),
    reg (formUnsigned .byte) rfl rfl (calcSub_unsigned .byte ..),
    reg (formUnsigned .word) rfl rfl (calcSub_unsigned .word ..),
    reg (formSigned .byte) rfl rfl (calcSub_signed .byte ..),
    reg (formSigned .word) rfl rfl (calcSub_signed .word ..),
    reg (formNeg .byte) rfl rfl (calcNeg_eq_differenceOf .byte ..),
    reg (formNeg .word) rfl rfl (calcNeg_eq_differenceOf .word ..),
    reg (formNeg .dword) rfl rfl (calcNeg_eq_differenceOf .dword ..)⟩

/-- Settles O32: PC may be named, since no register is written. -/
theorem compareAndBitTestRegisters : Obligations.CompareAndBitTestRegisters := by
  unfold Obligations.CompareAndBitTestRegisters
  intro s d r i c ha hslot
  have compare (m : Size) : aluReg (formCompare m) (calcSub m) d r s =
      .next (flagsEnd (differenceOf m s.flags (readReg d s) (readReg r s)).2 s) :=
    aluCore_compare ha hslot (congrArg Prod.snd (calcSub_eq_differenceOf ..))
  exact ⟨aluCore_compare ha hslot (congrArg Prod.snd (calcSub_dword_eq_differenceOf ..)),
    compare .byte, compare .word, compare .dword,
    aluCore_compare ha hslot (calcBtst_eq_bitTestOf ..),
    aluCore_compare ha hslot (calcBtst_quick ..)⟩

/-- Settles O33: each calculation is the one of its rule. -/
theorem boundAbsAddiSteps : Obligations.BoundAbsAddiSteps := by
  unfold Obligations.BoundAbsAddiSteps
  intro s d r ha hslot hd
  have reg (f : AluForm) (hw : f.dest.writes = true) (hwin : f.window = false) {g : Calc} {x : Word × Flags}
      (hx : g s.flags (truncSize f.size (readReg d s)) (f.source (readReg r s)) = x) :=
    aluReg_registerEnd ha hslot f hw hwin hd hx
  exact ⟨reg (formBound .byte) rfl rfl (calcBound_unsigned .byte ..),
    reg (formBound .word) rfl rfl (calcBound_unsigned .word ..),
    reg (formBound .dword) rfl rfl (calcBound_unsigned .dword ..),
    reg (formMove .dword) rfl rfl (calcAbs_eq_absOf ..),
    reg (formUpdateNoPc .dword) rfl rfl (calcAddi_eq_patternAt 0 ..),
    reg (formUpdateNoPc .dword) rfl rfl (calcAddi_eq_patternAt 1 ..),
    reg (formUpdateNoPc .dword) rfl rfl (calcAddi_eq_patternAt 2 ..),
    reg (formUpdateNoPc .dword) rfl rfl (calcDstep_eq_divideStepOf ..),
    reg (formUpdateNoPc .dword) rfl rfl (calcMstep_eq_multiplyStepOf ..)⟩

/-! ## O38: multiplication -/

/-- Settles O38: the 64-bit pattern is the exact product, which fits it. -/
theorem multiply : Obligations.Multiply := by
  unfold Obligations.Multiply
  intro s d r ha hslot hd
  have signed (m : Size) := mulReg_withProduct ha hslot hd (productSigned_eq_ofInt m (readReg r s) (readReg d s))
    (mulsFlags_ofInt _ (signed_product_bounds ..).1 (signed_product_bounds ..).2 s.flags)
  have unsigned (m : Size) := mulReg_withProduct ha hslot hd (productUnsigned_eq_ofInt m (readReg r s) (readReg d s))
    (muluFlags_ofInt (unsigned_product_lt ..) s.flags)
  exact ⟨signed .byte, signed .word, signed .dword, unsigned .byte, unsigned .word, unsigned .dword⟩

/-! ## O41 to O43: memory forms -/

/-- Settles O41: the operand is read, its address register updated, and the sum or difference written. -/
theorem addSubtractMemory : Obligations.AddSubtractMemory := by
  unfold Obligations.AddSubtractMemory
  intro s d r md hd hinline
  have alu (f : AluForm) (hw : f.dest.writes = true) (ht : f.threeOp = true) (hpc : f.pcDest = true)
      (hwin : f.window = false) {g : Calc} (word : Half) {x : Word × Flags}
      (h : OperandReady md r (sizeBytes f.access) s)
      (hx : g s.flags (truncSize f.size (readReg d s)) (f.source (memoryValue r (sizeBytes f.access) s)) = x) :=
    aluMem_threeOperandEnd hw ht hwin word h hd (fun hno => absurd hpc (by simp [hno])) hinline hx
  exact ⟨
    fun h => ⟨alu (formSized .byte) rfl rfl rfl rfl _ h (calcAdd_eq_sumOf .byte ..),
      alu (formUnsigned .byte) rfl rfl rfl rfl _ h (calcAdd_unsigned .byte ..),
      alu (formSigned .byte) rfl rfl rfl rfl _ h (calcAdd_signed .byte ..),
      alu (formSized .byte) rfl rfl rfl rfl _ h (calcSub_eq_differenceOf .byte ..),
      alu (formUnsigned .byte) rfl rfl rfl rfl _ h (calcSub_unsigned .byte ..),
      alu (formSigned .byte) rfl rfl rfl rfl _ h (calcSub_signed .byte ..)⟩,
    fun h => ⟨alu (formSized .word) rfl rfl rfl rfl _ h (calcAdd_eq_sumOf .word ..),
      alu (formUnsigned .word) rfl rfl rfl rfl _ h (calcAdd_unsigned .word ..),
      alu (formSigned .word) rfl rfl rfl rfl _ h (calcAdd_signed .word ..),
      alu (formSized .word) rfl rfl rfl rfl _ h (calcSub_eq_differenceOf .word ..),
      alu (formUnsigned .word) rfl rfl rfl rfl _ h (calcSub_unsigned .word ..),
      alu (formSigned .word) rfl rfl rfl rfl _ h (calcSub_signed .word ..)⟩,
    fun h => ⟨alu (formSized .dword) rfl rfl rfl rfl _ h (calcAdd_eq_sumOf .dword ..),
      alu (formSized .dword) rfl rfl rfl rfl _ h (calcSub_eq_differenceOf .dword ..)⟩⟩

/-- Settles O42: as O41; BOUND may not name PC, and its bound is the operand as read. -/
theorem logicAndBoundMemory : Obligations.LogicAndBoundMemory := by
  unfold Obligations.LogicAndBoundMemory
  refine ⟨fun s d r md hd hinline => ?logic, fun s d r md hd hpc => ?bound⟩
  case logic =>
    have alu (m : Size) {g : Calc} (word : Half) {x : Word × Flags} (h : OperandReady md r (sizeBytes m) s)
        (hx : g s.flags (truncSize m (readReg d s)) (truncSize m (memoryValue r (sizeBytes m) s)) = x) :=
      aluMem_threeOperandEnd (f := formSized m) rfl rfl rfl word h hd nofun hinline hx
    exact ⟨
      fun h => ⟨alu .byte _ h (calcAnd_eq_andOf ..), alu .byte _ h (calcOr_eq_orOf ..)⟩,
      fun h => ⟨alu .word _ h (calcAnd_eq_andOf ..), alu .word _ h (calcOr_eq_orOf ..)⟩,
      fun h => ⟨alu .dword _ h (calcAnd_eq_andOf ..), alu .dword _ h (calcOr_eq_orOf ..)⟩⟩
  case bound =>
    have bound (m : Size) (word : Half) (h : OperandReady md r (sizeBytes m) s) :=
      aluMem_threeOperandEnd (f := formBound m) (g := calcBound) rfl rfl rfl word h hd (fun _ => hpc)
        (fun h => absurd h hpc)
        ((congrArg (calcBound s.flags (readReg d s)) (truncSize_memoryValue m r s)).trans (calcBound_eq_boundOf ..))
    exact ⟨bound .byte _, bound .word _, bound .dword _⟩

/-- Settles O43: no register is written but the address register of the mode. -/
theorem compareAndTestMemory : Obligations.CompareAndTestMemory := by
  unfold Obligations.CompareAndTestMemory
  refine ⟨fun s d r md hinline => ?compare, fun s r md => ?test⟩
  case compare =>
    have compare (f : AluForm) (hw : f.dest.writes = false) (hwin : f.window = false) {g : Calc} (word : Half)
        {x : Word × Flags} (h : OperandReady md r (sizeBytes f.access) s)
        (hx : g s.flags (truncSize f.size (readReg d s)) (f.source (memoryValue r (sizeBytes f.access) s)) = x) :=
      aluMem_operandFlagsEnd hw hwin word h (fun _ => hinline) hx
    exact ⟨
      fun h => ⟨compare (formCompare .byte) rfl rfl _ h (calcSub_eq_differenceOf .byte ..),
        compare (formCompareUnsigned .byte) rfl rfl _ h (calcSub_unsigned .byte ..),
        compare (formCompareSigned .byte) rfl rfl _ h (calcSub_signed .byte ..)⟩,
      fun h => ⟨compare (formCompare .word) rfl rfl _ h (calcSub_eq_differenceOf .word ..),
        compare (formCompareUnsigned .word) rfl rfl _ h (calcSub_unsigned .word ..),
        compare (formCompareSigned .word) rfl rfl _ h (calcSub_signed .word ..)⟩,
      fun h => compare (formCompare .dword) rfl rfl _ h (calcSub_eq_differenceOf .dword ..)⟩
  case test =>
    have test (m : Size) (word : Half) (h : OperandReady md r (sizeBytes m) s) :=
      aluMem_operandFlagsEnd (f := formTest m) (d := 0#4) rfl rfl word h nofun (calcMove_truncSize m ..)
    exact ⟨test .byte _, test .word _, test .dword _⟩

end Sys2Proof.Proofs
end

section
/-! O34 and O35: logic, leading zeros and shifts of registers. Each claim names the form and the calculation of each of
its words; before it stand the calculations that no earlier claim is about, in the words of the claim. -/

namespace Sys2Proof.Proofs

-- Declarations are checked one after another: many at once need more threads than the memory limit of the check allows.
set_option Elab.async false

open Sys2Proof.Machine Sys2Proof.Laws

/-! ## O34: logic and leading zeros -/

/-- NOT is SWAP with option N alone (43_logic_shift_bit.md R345). -/
theorem calcSwap_not (f : Flags) (v : Word) : calcSwap f v 8#32 = plainResult .dword f (~~~v) := by
  rw [plainResult_eq_setNZ00]
  rfl

/-- Settles O34: each calculation is the one of its rule. -/
theorem logicRegisters : Obligations.LogicRegisters := by
  unfold Obligations.LogicRegisters
  intro s d r i ha hslot hd
  have quick (f : AluForm) (hw : f.dest.writes = true) (hwin : f.window = false) {g : Calc} {src : Word}
      {x : Word × Flags} (hx : g s.flags (truncSize f.size (readReg d s)) src = x) :
      aluCore f g d src s = .next (registerEnd f.size d x s) :=
    aluCore_registerEnd hw hwin ha hslot hd hx
  have reg (f : AluForm) (hw : f.dest.writes = true) (hwin : f.window = false) {g : Calc} {x : Word × Flags}
      (hx : g s.flags (truncSize f.size (readReg d s)) (f.source (readReg r s)) = x) :=
    aluReg_registerEnd ha hslot f hw hwin hd hx
  exact ⟨quick (formUpdate .dword) rfl rfl (calcAnd_eq_andOf .dword ..),
    quick (formUpdate .dword) rfl rfl (calcOr_eq_orOf .dword ..),
    reg (formSized .byte) rfl rfl (calcAnd_eq_andOf .byte ..),
    reg (formSized .word) rfl rfl (calcAnd_eq_andOf .word ..),
    reg (formSized .dword) rfl rfl (calcAnd_eq_andOf .dword ..),
    reg (formSized .byte) rfl rfl (calcOr_eq_orOf .byte ..),
    reg (formSized .word) rfl rfl (calcOr_eq_orOf .word ..),
    reg (formSized .dword) rfl rfl (calcOr_eq_orOf .dword ..),
    reg (formUpdate .dword) rfl rfl (calcXor_eq_plainResult ..),
    quick (formUpdateNoPc .dword) rfl rfl (calcSwap_not ..),
    reg (formMove .dword) rfl rfl (calcLz_eq_plainResult ..)⟩

/-! ## O35: shifts -/

/-- The count of a quick form (43_logic_shift_bit.md R350, R352, R354). -/
theorem shiftCount_setWidth (c : BitVec 5) : shiftCount (c.setWidth 32) = c.toNat := by
  have := c.isLt
  rw [shiftCount_eq, BitVec.toNat_setWidth]
  omega

theorem widthOf_le (m : Size) : widthOf m ≤ 32 := by cases m <;> decide

/-- A bit shifted out of the dword is out of every size. -/
theorem unsignedAt_shiftLeft (m : Size) (v : Word) (n : Nat) :
    unsignedAt m (v <<< n) = v.toNat * 2 ^ n % 2 ^ widthOf m := by
  rw [unsignedAt, BitVec.toNat_shiftLeft, Nat.shiftLeft_eq, Nat.mod_mod_of_dvd _ (Nat.pow_dvd_pow 2 (widthOf_le m))]

/-- LSL is the product by a power of two, truncated (43_logic_shift_bit.md R351). -/
theorem calcLsl_eq_leftShiftOf (m : Size) (f : Flags) (a b : Word) :
    calcLsl m f (truncSize m a) b = leftShiftOf m f a (shiftCount b) := by
  have hr : patternAt m (unsignedAt m a * 2 ^ shiftCount b : Nat) = truncSize m (truncSize m a <<< shiftCount b) := by
    apply patternAt_eq_truncSize
    rw [unsignedAt_shiftLeft, toNat_truncSize]
    norm_cast
  rw [leftShiftOf, plainResult_eq_setNZ00, hr, calcLsl]

/-- LSR is the unsigned quotient, which needs no truncation (43_logic_shift_bit.md R353). -/
theorem calcLsr_eq_rightShiftOf (m : Size) (f : Flags) (a b : Word) :
    calcLsr m f (truncSize m a) b = rightShiftOf m f a (shiftCount b) := by
  have hr : patternAt m (unsignedAt m a / 2 ^ shiftCount b : Nat) = truncSize m a >>> shiftCount b := by
    have hlt : unsignedAt m a / 2 ^ shiftCount b < 2 ^ widthOf m := (Nat.div_le_self ..).trans_lt (unsignedAt_lt m a)
    have hpattern : ((patternAt m (unsignedAt m a / 2 ^ shiftCount b : Nat)).toNat : Int) =
        (unsignedAt m a / 2 ^ shiftCount b : Nat) := by
      rw [toNat_patternAt]
      exact mod_cast Nat.mod_eq_of_lt hlt
    apply BitVec.eq_of_toNat_eq
    rw [BitVec.toNat_ushiftRight, Nat.shiftRight_eq_div_pow, toNat_truncSize]
    exact Int.ofNat_inj.1 hpattern
  rw [rightShiftOf, plainResult_eq_setNZ00, hr, calcLsr, truncSize_truncSize]

/-- Settles O35: each calculation is the product or the quotient of the claim, at the count that it names. -/
theorem shiftRegisters : Obligations.ShiftRegisters := by
  unfold Obligations.ShiftRegisters
  intro s d r c ha hslot hd
  have left (m : Size) {src : Word} {n : Nat} (hn : shiftCount src = n) :
      aluCore (formUpdateNoPc m) (calcLsl m) d src s =
        .next (registerEnd m d (leftShiftOf m s.flags (readReg d s) n) s) :=
    hn ▸ aluCore_registerEnd rfl rfl ha hslot hd (calcLsl_eq_leftShiftOf m ..)
  have right (m : Size) {src : Word} {n : Nat} (hn : shiftCount src = n) :
      aluCore (formUpdateNoPc m) (calcLsr m) d src s =
        .next (registerEnd m d (rightShiftOf m s.flags (readReg d s) n) s) :=
    hn ▸ aluCore_registerEnd rfl rfl ha hslot hd (calcLsr_eq_rightShiftOf m ..)
  have signed (m : Size) {src : Word} {n : Nat} (hn : shiftCount src = n) :
      aluCore (formUpdate m) (calcAsr m) d src s =
        .next (registerEnd m d (signedShiftOf m s.flags (readReg d s) n) s) :=
    hn ▸ aluCore_registerEnd rfl rfl ha hslot hd (calcAsr_eq_signedShiftOf m ..)
  have count (m : Size) := shiftCount_truncSize m (readReg r s)
  have quick := shiftCount_setWidth c
  exact ⟨left .byte (count .byte), left .word (count .word), left .dword (count .dword), left .dword quick,
    right .byte (count .byte), right .word (count .word), right .dword (count .dword), right .dword quick,
    signed .byte (count .byte), signed .word (count .word), signed .dword (count .dword), signed .dword quick⟩

end Sys2Proof.Proofs
end

section
/-! O56: the flag instructions and NOP. A flag instruction is its list operation on the flags and the end that opens the
window; AX, EI and DI are the list operations at one mask. -/

namespace Sys2Proof.Proofs

-- Declarations are checked one after another: many at once need more threads than the memory limit of the check allows.
set_option Elab.async false

open Sys2Proof.Machine Sys2Proof.Laws

/-! ## The lists of flags -/

section
variable {mode : Mode} {g : Bool} (hg : g = decide (mode = .supervisor)) (k : BitVec 8) (f : Flags)
include hg

/-- SETF with its guard named: M, B and I are listed in vain in user mode (44_flags_nop.md R381). -/
theorem setFlagList_guard : setFlagList mode k f = { f with
    c := f.c || k.getLsbD 0, v := f.v || k.getLsbD 1, z := f.z || k.getLsbD 2, n := f.n || k.getLsbD 3
    x := k.getLsbD 4, i := f.i || (k.getLsbD 5 && g), b := f.b || (k.getLsbD 6 && g)
    m := f.m || (k.getLsbD 7 && g) } := by
  subst hg
  rfl

/-- CLEARF with its guard named (44_flags_nop.md R382). -/
theorem clearFlagList_guard : clearFlagList mode k f = { f with
    c := f.c && !k.getLsbD 0, v := f.v && !k.getLsbD 1, z := f.z && !k.getLsbD 2, n := f.n && !k.getLsbD 3
    x := false, i := f.i && !(k.getLsbD 5 && g), b := f.b && !(k.getLsbD 6 && g), f := false, p := false } := by
  subst hg
  rfl

/-- EI lists I alone, so X is cleared (44_flags_nop.md R384). -/
theorem setFlagList_ei : setFlagList mode 0x20#8 f = { f with x := false, i := f.i || g } := by
  rw [setFlagList_guard hg]
  simp

/-- DI lists I alone; X, F and P are cleared unlisted (44_flags_nop.md R385). -/
theorem clearFlagList_di :
    clearFlagList mode 0x20#8 f = { f with x := false, i := f.i && !g, f := false, p := false } := by
  rw [clearFlagList_guard hg]
  simp

end

/-- AX lists X alone, which no mode protects (44_flags_nop.md R383). -/
theorem setFlagList_ax (mode : Mode) (f : Flags) : setFlagList mode 0x10#8 f = { f with x := true } := by
  rw [setFlagList_guard rfl]
  simp

/-! ## The end of the instructions -/

section
variable {s : State} (ha : s.prefixAddr = none) (hslot : SlotOk s)
include ha hslot

/-- With no address handed over to it, a flag instruction writes the flags, keeps its X and opens the window, in a slot
too. -/
theorem flagOp_finished {g : Flags → Flags} {f : Flags} (hf : g s.flags = f) :
    flagOp g s = .next (finished (pcPlus2 s) true true (withFlags f s)) := by
  have hend : flagOp g s =
      complete { seq := pcPlus2 s, transfer := .none, window := true, keepX := true } (withFlags f s) := by
    rw [← hf, flagOp, ha]
    rfl
  exact hend.trans (complete_plain _ _ _ (slotOk_of_delay (withFlags_delay f s) hslot))

theorem execNop_finished : execNop s = .next (finished (pcPlus2 s) false false s) := by
  have hend : execNop s = complete (ending (pcPlus2 s) .none false) s := by
    rw [execNop, ha]
    rfl
  exact hend.trans (complete_plain _ _ _ hslot)

end

/-! ## The words -/

/-- A word is its fixed fields with the two operand fields laid over them (30_encoding.md R131). -/
theorem mkWord_eq_or (a : BitVec 4) (b : BitVec 2) (c : BitVec 4) (d : BitVec 2) (e : BitVec 4) :
    mkWord a b c d e = mkWord 0#4 b c d 0#4 ||| (a.setWidth 16 <<< 12) ||| e.setWidth 16 := by
  apply BitVec.eq_of_getLsbD_eq
  intro i hi
  simp only [BitVec.getLsbD_or, getLsbD_mkWord, BitVec.getLsbD_shiftLeft, BitVec.getLsbD_setWidth, BitVec.getLsbD_zero]
  rcases lt_or_ge i 4 with hlow | hlow
  · simp [hlow, show i < 12 by omega, hi]
  · have he : e.getLsbD i = false := BitVec.getLsbD_of_ge e i hlow
    rcases lt_or_ge i 12 with hmid | hmid
    · simp [hmid, he, show ¬ i < 4 by omega]
    · simp [he, hi, show ¬ i < 4 by omega, show ¬ i < 6 by omega, show ¬ i < 10 by omega, show ¬ i < 12 by omega,
        show i - 12 < 16 by omega]

/-- Settles O56: each instruction is its list operation and the shared end. -/
theorem flagInstructions : Obligations.FlagInstructions := by
  unfold Obligations.FlagInstructions
  intro s k g ha hslot hg
  exact ⟨flagOp_finished ha hslot (setFlagList_guard hg k s.flags),
    flagOp_finished ha hslot (clearFlagList_guard hg k s.flags),
    flagOp_finished ha hslot (setFlagList_ax s.mode s.flags),
    flagOp_finished ha hslot (setFlagList_ei hg s.flags),
    flagOp_finished ha hslot (clearFlagList_di hg s.flags),
    execNop_finished ha hslot,
    mkWord_eq_or .., mkWord_eq_or .., rfl, rfl, rfl, rfl⟩

end Sys2Proof.Proofs
end

section
/-! O27: words that may not stand in the slot of a taken transfer (U14). Each shape of word has its lemma: a word that
transfers control or hands over an address tests for the slot itself, a word that writes PC by `destRefusal`, and a word with
an operand that is in line or prefixed by `operandRefusal`. -/

namespace Sys2Proof.Proofs

-- Declarations are checked one after another: many at once need more threads than the memory limit of the check allows.
set_option Elab.async false

open Sys2Proof.Machine Sys2Proof.Laws

section
variable {s : State} (hd : s.delay.isSome = true)
include hd

/-! ## Words that test for the slot themselves -/

theorem jumpMem_slot (k : JumpKind) (word : Half) (md : Bool) (r : RegNo) :
    jumpMem k word md r s = .refused .forbiddenInDelaySlot := if_pos hd

theorem indexPrefix_slot (shift : Nat) (k b : RegNo) : indexPrefix shift k b s = .refused .forbiddenInDelaySlot :=
  if_pos hd

theorem bytePrefix_slot (b : RegNo) (o : BitVec 8) : bytePrefix b o s = .refused .forbiddenInDelaySlot := if_pos hd

theorem offsetPrefix_slot (m : Size) (word : Half) (b : RegNo) (md : Bool) (r : RegNo) :
    offsetPrefix m word b md r s = .refused .forbiddenInDelaySlot := if_pos hd

theorem pointerPrefix_slot (word : Half) (md : Bool) (r : RegNo) :
    pointerPrefix word md r s = .refused .forbiddenInDelaySlot := if_pos hd

theorem execRbf_slot (md : Bool) (r : RegNo) : execRbf md r s = .refused .forbiddenInDelaySlot := if_pos hd

/-! ## Words that transfer control, and words without a memory operand that write PC -/

section
variable (ha : s.prefixAddr = none)
include ha

theorem transferRefusal_slot : transferRefusal s = some .forbiddenInDelaySlot := by simp [transferRefusal, ha, hd]

theorem branchShort_slot (c : Cond) (o : BitVec 8) : branchShort c o s = .refused .forbiddenInDelaySlot := by
  rw [branchShort, transferRefusal_slot hd ha]

theorem branchLong_slot (word : Half) (c : Cond) : branchLong word c s = .refused .forbiddenInDelaySlot := by
  rw [branchLong, transferRefusal_slot hd ha]

theorem jumpReg_slot (k : JumpKind) (r : RegNo) : jumpReg k r s = .refused .forbiddenInDelaySlot := by
  rw [jumpReg, transferRefusal_slot hd ha]

theorem execBreakN_slot (n : BitVec 4) : execBreakN n s = .refused .forbiddenInDelaySlot := by
  rw [execBreakN, transferRefusal_slot hd ha]

/-- A second delayed transfer (10_state.md R31), but for the returns that carry the mark. -/
theorem moveFromSregReg_pc_slot {p : SReg} (hp : sregSize p ≠ none) (hret : isModeReturn p = false) :
    moveFromSregReg p 15#4 s = .refused .forbiddenInDelaySlot := by
  obtain ⟨z, hz⟩ := Option.ne_none_iff_exists'.1 hp
  obtain ⟨d, hs⟩ := Option.isSome_iff_exists.1 hd
  simp [moveFromSregReg, ha, hz, hret, complete, hs, ending]

theorem aluCore_pc_slot {f : AluForm} (hw : f.dest.writes = true) (hpc : f.pcDest = true) (g : Calc) (src : Word) :
    aluCore f g 15#4 src s = .refused .forbiddenInDelaySlot := by
  simp [aluCore, ha, destRefusal, hw, hpc, hd]

/-- Memory forms that write PC, the operand being allowed in a slot. -/
theorem aluMem_pc_slot {f : AluForm} (hw : f.dest.writes = true) (hpc : f.pcDest = true) {md : Bool} {r : RegNo}
    (hi : isInline md r s = false) (g : Calc) (word : Half) :
    aluMem f g word 15#4 md r s = .refused .forbiddenInDelaySlot := by
  have hdest : memoryDest f 15#4 md r s = 15#4 := by simp [memoryDest, ha]
  have href : memoryRefusal f 15#4 md r s = some .forbiddenInDelaySlot := by
    simp [memoryRefusal, destRefusal, hdest, ha, hi, hw, hpc, hd]
  exact aluMem_refused href g word

end

/-- MOVEM that loads PC. -/
theorem movemLoadOp_pc_slot (word : Half) (r : RegNo) :
    movemLoadOp word 15#4 false r s = .refused .forbiddenInDelaySlot :=
  movemLoadOp_refused (by simp [movemRefusal, hd]) word

/-! ## Operands that are in line or prefixed -/

section
variable {md : Bool} {r : RegNo} (hform : s.prefixAddr.isSome = true ∨ isInline md r s = true)
include hform

theorem operandRefusal_slot : operandRefusal md r s = some .forbiddenInDelaySlot :=
  if_pos (by simpa [hd] using hform)

theorem loadOperand_slot (c : Ctx) (n : Nat) : loadOperand c md r n s = .stop (.refused .forbiddenInDelaySlot) := by
  simp only [loadOperand, operandRefusal_slot hd hform]

theorem storeOperand_slot (c : Ctx) (n : Nat) (v : Word) :
    storeOperand c md r n v s = .stop (.refused .forbiddenInDelaySlot) := by
  simp only [storeOperand, operandRefusal_slot hd hform]

theorem storeReg_slot (m : Size) (word : Half) (q : RegNo) : storeReg m word q md r s = .refused .forbiddenInDelaySlot := by
  simp only [storeReg, storeOperand_slot hd hform, Act.finish]

theorem moveToSregMem_slot {p : SReg} (hp : sregSize p ≠ none) (word : Half) :
    moveToSregMem word p md r s = .refused .forbiddenInDelaySlot := by
  obtain ⟨z, hz⟩ := Option.ne_none_iff_exists'.1 hp
  simp only [moveToSregMem, hz, loadOperand_slot hd hform, Act.finish]

theorem moveFromSregMem_slot {p : SReg} (hp : sregSize p ≠ none) (word : Half) :
    moveFromSregMem word p md r s = .refused .forbiddenInDelaySlot := by
  obtain ⟨z, hz⟩ := Option.ne_none_iff_exists'.1 hp
  simp only [moveFromSregMem, hz, storeOperand_slot hd hform, Act.finish]

theorem saveStatus_slot (word : Half) : saveStatus word md r s = .refused .forbiddenInDelaySlot := by
  simp only [saveStatus, operandRefusal_slot hd hform]

/-- A two-operand word is refused as its destination is, or for its operand. -/
theorem aluMem_slot {f : AluForm} {d : RegNo}
    (href : memoryRefusal f d md r s = none ∨ memoryRefusal f d md r s = some .forbiddenInDelaySlot) (g : Calc)
    (word : Half) : aluMem f g word d md r s = .refused .forbiddenInDelaySlot := by
  rcases href with href | href
  · simp only [aluMem, href, loadOperand_slot hd hform, Act.finish]
  · exact aluMem_refused href g word

theorem aluMem_slot_refused (f : AluForm) (g : Calc) (word : Half) (d : RegNo) :
    ∃ x, aluMem f g word d md r s = .refused x := by
  cases href : memoryRefusal f d md r s with
  | none => exact ⟨_, aluMem_slot hd hform (.inl href) g word⟩
  | some x => exact ⟨x, aluMem_refused href g word⟩

theorem moveToSregMem_slot_refused (word : Half) (p : SReg) : ∃ x, moveToSregMem word p md r s = .refused x := by
  cases hp : sregSize p with
  | none => exact ⟨_, moveToSregMem_undefined hp word md r⟩
  | some z => exact ⟨_, moveToSregMem_slot hd hform (by simp [hp]) word⟩

theorem moveFromSregMem_slot_refused (word : Half) (p : SReg) : ∃ x, moveFromSregMem word p md r s = .refused x := by
  cases hp : sregSize p with
  | none => exact ⟨_, moveFromSregMem_undefined hp word md r⟩
  | some z => exact ⟨_, moveFromSregMem_slot hd hform (by simp [hp]) word⟩

/-- MOVEM is refused in any case; by this name where it is no MOVEM of U6. -/
theorem movemRefusal_slot_exists (load : Bool) (d : RegNo) : ∃ x, movemRefusal load d md r s = some x := by
  unfold movemRefusal
  split
  · exact ⟨_, rfl⟩
  · split
    · exact ⟨_, rfl⟩
    · split
      · exact ⟨_, rfl⟩
      · exact ⟨_, operandRefusal_slot hd hform⟩

theorem movemRefusal_slot {load : Bool} {d : RegNo} (hload : load = true → md = true → d.toNat < r.toNat)
    (hre : md = true → s.prefixAddr.isSome = true → restartCycle s = none) :
    movemRefusal load d md r s = some .forbiddenInDelaySlot := by
  have hloaded : ¬ (load && md && decide (r.toNat ≤ d.toNat)) = true := by simpa using hload
  have hrestarted : ¬ (md && s.prefixAddr.isSome && (restartCycle s).isSome) = true := by simpa using hre
  rw [movemRefusal, if_neg hloaded, if_neg hrestarted, operandRefusal_slot hd hform, ite_self]

end

end

/-- The destination is no ground to stop, or the same one, where PC is supported or is not the destination. -/
theorem destRefusal_none_or_slot {f : AluForm} {d : RegNo} (s : State)
    (hf : f.dest.writes = true → f.pcDest = false → d ≠ 15#4) :
    destRefusal f d s = none ∨ destRefusal f d s = some .forbiddenInDelaySlot := by
  unfold destRefusal
  split
  · next hpc =>
    simp only [Bool.and_eq_true, beq_iff_eq] at hpc
    rw [if_neg fun hno => hf hpc.1 (by simpa using hno) hpc.2]
    split
    · exact .inr rfl
    · exact .inl rfl
  · exact .inl rfl

/-- Beside U7, U2 and U9 a two-operand word has no other ground to stop before its operand. -/
theorem memoryRefusal_none_or_slot {f : AluForm} {d : RegNo} {md : Bool} {r : RegNo} {s : State}
    (hoperand1 : f.dest.writes = true → f.threeOp = false → s.prefixAddr.isSome = true → md = false → r = d)
    (hdest : f.dest.writes = true → f.pcDest = false → d ≠ 15#4 ∧ memoryDest f d md r s ≠ 15#4)
    (hread : f.dest.reads = true → d = 15#4 → isInline md r s = false) :
    memoryRefusal f d md r s = none ∨ memoryRefusal f d md r s = some .forbiddenInDelaySlot := by
  have hU7 : ¬ (f.dest.writes && !f.threeOp && s.prefixAddr.isSome && !md && r != d) = true := by simpa using hoperand1
  have hU2 : ¬ (f.dest.writes && !f.pcDest && d == 15#4) = true := by
    simpa using fun hw hpc => (hdest hw hpc).1
  have hU9 : ¬ (f.dest.reads && d == 15#4 && isInline md r s) = true := by simpa using hread
  rw [memoryRefusal, if_neg hU7, if_neg hU2, if_neg hU9]
  exact destRefusal_none_or_slot s fun hw hpc => (hdest hw hpc).2

/-- Settles O27, shape by shape. -/
theorem forbiddenSlotWordsStop : Obligations.ForbiddenSlotWordsStop := by
  unfold Obligations.ForbiddenSlotWordsStop
  refine ⟨fun s d r md n k e hd ha => ?transfer, fun s p hd ha hp hirp hbrp => ?move, fun s r j c hd ha => ?register,
    fun s r md hd ha hi => ?memory, fun s d r md p hd hform => ?operandRefused, fun s d r md p hd hform => ?operand,
    fun s d r md p k hd hpre => ?afterPrefix⟩
  case transfer =>
    have jump (kind : JumpKind) := jumpReg_slot hd ha kind r
    have jumpMem (kind : JumpKind) {word : Half} := jumpMem_slot hd kind word md r
    have move (q : SReg) (hq : sregSize q ≠ none) (hret : isModeReturn q = false) :=
      moveFromSregReg_pc_slot hd ha hq hret
    exact ⟨branchShort_slot hd ha e k, branchLong_slot hd ha _ e, execBreakN_slot hd ha n,
      jump kindJump, jump kindJirc, jump kindJsrc, jump kindJbrc, jump kindJir, jump kindJsr,
      jumpMem kindJump, jumpMem kindJirc, jumpMem kindJsrc, jumpMem kindJbrc, jumpMem kindJir, jumpMem kindJsr,
      jumpMem kindJmpu, bytePrefix_slot hd d k, indexPrefix_slot hd 0 r d, indexPrefix_slot hd 1 r d,
      indexPrefix_slot hd 2 r d, offsetPrefix_slot hd .byte _ d md r, offsetPrefix_slot hd .word _ d md r,
      offsetPrefix_slot hd .dword _ d md r, pointerPrefix_slot hd _ md r, execRbf_slot hd md r,
      move .srp nofun rfl, move .p0 nofun rfl, move .p4 nofun rfl, move .p8 nofun rfl⟩
  case move => exact moveFromSregReg_pc_slot hd ha hp (by simp [isModeReturn, hirp, hbrp])
  case register =>
    have write (f : AluForm) (hw : f.dest.writes = true := by rfl) (hpc : f.pcDest = true := by rfl) {g : Calc}
        {src : Word} : aluCore f g 15#4 src s = .refused .forbiddenInDelaySlot := aluCore_pc_slot hd ha hw hpc g src
    exact ⟨write (formUpdate .dword), write (formUpdate .dword), write (formMove .dword), write (formUpdate .dword),
      write (formUpdate .dword), write (formUpdate .dword), write (formSized .byte), write (formSized .word),
      write (formSized .dword), write (formSized .byte), write (formSized .word), write (formSized .dword),
      write (formSized .byte), write (formSized .word), write (formSized .dword), write (formSized .byte),
      write (formSized .word), write (formSized .dword), write (formUpdate .byte), write (formUpdate .word),
      write (formUpdate .dword), write (formUnsigned .byte), write (formUnsigned .word), write (formSigned .byte),
      write (formSigned .word), write (formUnsigned .byte), write (formUnsigned .word), write (formSigned .byte),
      write (formSigned .word), write (formMoveUnsigned .byte), write (formMoveUnsigned .word),
      write (formMoveSigned .byte), write (formMoveSigned .word), write (formMove .byte), write (formMove .word),
      write (formMove .dword), write (formMove .dword), write (formMove .dword), write (formUpdate .dword)⟩
  case memory =>
    have write (f : AluForm) (hw : f.dest.writes = true := by rfl) (hpc : f.pcDest = true := by rfl) {g : Calc}
        {word : Half} : aluMem f g word 15#4 md r s = .refused .forbiddenInDelaySlot :=
      aluMem_pc_slot hd ha hw hpc hi g word
    exact ⟨write (formSized .byte), write (formSized .word), write (formSized .dword), write (formSized .byte),
      write (formSized .word), write (formSized .dword), write (formSized .byte), write (formSized .word),
      write (formSized .dword), write (formSized .byte), write (formSized .word), write (formSized .dword),
      write (formUnsigned .byte), write (formUnsigned .word), write (formSigned .byte), write (formSigned .word),
      write (formUnsigned .byte), write (formUnsigned .word), write (formSigned .byte), write (formSigned .word),
      write (formMove .byte), write (formMove .word), write (formMove .dword), write (formMoveUnsigned .byte),
      write (formMoveUnsigned .word), write (formMoveSigned .byte), write (formMoveSigned .word),
      aluMem_pc_slot (f := formMove .dword) hd ha rfl rfl (isInline_of_register (by decide) true s) _ _,
      movemLoadOp_pc_slot hd _ r⟩
  case operandRefused =>
    have alu (f : AluForm) {g : Calc} {word : Half} {q : RegNo} := aluMem_slot_refused hd hform f g word q
    have store (m : Size) {word : Half} : ∃ x, storeReg m word d md r s = .refused x :=
      ⟨_, storeReg_slot hd hform m word d⟩
    have jump {kind : JumpKind} {word : Half} : ∃ x, jumpMem kind word md r s = .refused x :=
      ⟨_, jumpMem_slot hd kind word md r⟩
    have load : ∃ x, exec (.movemLoad d md r) s = .refused x := by
      obtain ⟨x, hx⟩ := movemRefusal_slot_exists hd hform true d
      exact ⟨x, movemLoadOp_refused hx _⟩
    have movemStore : ∃ x, exec (.movemStore d md r) s = .refused x := by
      obtain ⟨x, hx⟩ := movemRefusal_slot_exists hd hform false d
      exact ⟨x, movemStoreOp_refused hx _⟩
    exact ⟨alu (formSized .byte), alu (formSized .word), alu (formSized .dword), alu (formSized .byte),
      alu (formSized .word), alu (formSized .dword), alu (formSized .byte), alu (formSized .word),
      alu (formSized .dword), alu (formSized .byte), alu (formSized .word), alu (formSized .dword),
      alu (formUnsigned .byte), alu (formUnsigned .word), alu (formSigned .byte), alu (formSigned .word),
      alu (formUnsigned .byte), alu (formUnsigned .word), alu (formSigned .byte), alu (formSigned .word),
      alu (formCompare .byte), alu (formCompare .word), alu (formCompare .dword), alu (formCompareUnsigned .byte),
      alu (formCompareUnsigned .word), alu (formCompareSigned .byte), alu (formCompareSigned .word),
      alu (formBound .byte), alu (formBound .word), alu (formBound .dword), alu (formMove .byte),
      alu (formMove .word), alu (formMove .dword), alu (formMoveUnsigned .byte), alu (formMoveUnsigned .word),
      alu (formMoveSigned .byte), alu (formMoveSigned .word), alu (formTest .byte), alu (formTest .word),
      alu (formTest .dword), store .byte, store .word, store .dword, moveFromSregMem_slot_refused hd hform _ .p0,
      moveFromSregMem_slot_refused hd hform _ .p4, moveFromSregMem_slot_refused hd hform _ .p8,
      moveToSregMem_slot_refused hd hform _ p, moveFromSregMem_slot_refused hd hform _ p, load, movemStore,
      ⟨_, saveStatus_slot hd hform _⟩, jump, jump, jump, jump, jump, jump, jump, ⟨_, execRbf_slot hd md r⟩⟩
  case operand =>
    have test (f : AluForm) (hw : f.dest.writes = false) (hr : f.dest.reads = false) {g : Calc} {word : Half}
        {q : RegNo} := aluMem_slot (f := f) (d := q) hd hform
        (memoryRefusal_none_or_slot (by simp [hw]) (by simp [hw]) (by simp [hr])) g word
    have store (m : Size) {word : Half} := storeReg_slot hd hform m word d
    have clear (q : SReg) (hq : sregSize q ≠ none) {word : Half} := moveFromSregMem_slot hd hform hq word
    have jump {kind : JumpKind} {word : Half} := jumpMem_slot hd kind word md r
    refine ⟨fun hread => ?arithmetic, fun hdest hthree => ?bound, fun hoperand1 => ?moves,
      fun hp => ⟨moveToSregMem_slot hd hform hp _, moveFromSregMem_slot hd hform hp _⟩,
      fun hre => ⟨?store, fun hload => ?load⟩,
      test (formTest .byte) rfl rfl, test (formTest .word) rfl rfl, test (formTest .dword) rfl rfl,
      store .byte, store .word, store .dword, clear .p0 nofun, clear .p4 nofun, clear .p8 nofun,
      saveStatus_slot hd hform _, jump, jump, jump, jump, jump, jump, jump, execRbf_slot hd md r⟩
    case arithmetic =>
      have alu (f : AluForm) (hf : f.dest.writes = true → f.threeOp = true := by decide) (hpc : f.pcDest = true := by rfl)
          {g : Calc} {word : Half} : aluMem f g word d md r s = .refused .forbiddenInDelaySlot :=
        aluMem_slot hd hform (memoryRefusal_none_or_slot (fun hw ht => by simp [hf hw] at ht) (by simp [hpc])
          fun _ => hread) g word
      exact ⟨alu (formSized .byte), alu (formSized .word), alu (formSized .dword), alu (formSized .byte),
        alu (formSized .word), alu (formSized .dword), alu (formSized .byte), alu (formSized .word),
        alu (formSized .dword), alu (formSized .byte), alu (formSized .word), alu (formSized .dword),
        alu (formUnsigned .byte), alu (formUnsigned .word), alu (formSigned .byte), alu (formSigned .word),
        alu (formUnsigned .byte), alu (formUnsigned .word), alu (formSigned .byte), alu (formSigned .word),
        alu (formCompare .byte), alu (formCompare .word), alu (formCompare .dword), alu (formCompareUnsigned .byte),
        alu (formCompareUnsigned .word), alu (formCompareSigned .byte), alu (formCompareSigned .word)⟩
    case bound =>
      have alu (m : Size) {g : Calc} {word : Half} := aluMem_slot (f := formBound m) (d := d) hd hform
        (memoryRefusal_none_or_slot nofun (fun _ _ => ⟨hdest, hthree⟩) fun _ h => absurd h hdest) g word
      exact ⟨alu .byte, alu .word, alu .dword⟩
    case moves =>
      have alu (f : AluForm) (hr : f.dest.reads = false) (hpc : f.pcDest = true) {g : Calc} {word : Half} :=
        aluMem_slot (f := f) (d := d) hd hform
          (memoryRefusal_none_or_slot (fun _ _ => hoperand1) (by simp [hpc]) (by simp [hr])) g word
      exact ⟨alu (formMove .byte) rfl rfl, alu (formMove .word) rfl rfl, alu (formMove .dword) rfl rfl,
        alu (formMoveUnsigned .byte) rfl rfl, alu (formMoveUnsigned .word) rfl rfl,
        alu (formMoveSigned .byte) rfl rfl, alu (formMoveSigned .word) rfl rfl⟩
    case store => exact movemStoreOp_refused (movemRefusal_slot hd hform nofun hre) _
    case load => exact movemLoadOp_refused (movemRefusal_slot hd hform (fun _ => hload) hre) _
  case afterPrefix =>
    have hform : s.prefixAddr.isSome = true ∨ isInline true 14#4 s = true := .inl hpre
    have pop : exec (.popReg d) s = .refused .forbiddenInDelaySlot :=
      aluMem_slot (f := formMove .dword) (d := d) hd hform (memoryRefusal_none_or_slot nofun nofun nofun) _ _
    exact ⟨fun hp => ⟨moveToSregMem_slot hd hform hp _, moveFromSregMem_slot hd hform hp _⟩, pop,
      storeReg_slot hd hform .dword _ d, bytePrefix_slot hd d k, indexPrefix_slot hd 0 r d, indexPrefix_slot hd 1 r d,
      indexPrefix_slot hd 2 r d, offsetPrefix_slot hd .byte _ d md r, offsetPrefix_slot hd .word _ d md r,
      offsetPrefix_slot hd .dword _ d md r, pointerPrefix_slot hd _ md r⟩

end Sys2Proof.Proofs
end

section
/-! O51, O53, O54 and O55: the transfers of control outside a delay slot: moves of special registers to PC, branches, jumps
and BREAK. Each is its target and its link, and one of the three ends of a transfer. -/

namespace Sys2Proof.Proofs

-- Declarations are checked one after another: many at once need more threads than the memory limit of the check allows.
set_option Elab.async false

open Sys2Proof.Machine Sys2Proof.Laws

theorem slotOk_of_noDelay {s : State} (hd : s.delay = none) : SlotOk s := fun d h => by simp [hd] at h

/-- Outside a slot and without an address handed over, a word may transfer control (45_jump_branch.md R404). -/
theorem transferRefusal_none {s : State} (ha : s.prefixAddr = none) (hd : s.delay = none) : transferRefusal s = none := by
  simp [transferRefusal, ha, hd]

/-! ## O51: moves of special registers to PC -/

/-- A delayed jump to the register's value, its width merged into PC (41_data_transfer.md R249; log 39). -/
theorem moveFromSregReg_pc {p : SReg} {z : Size} (hz : sregSize p = some z) {s : State} (ha : s.prefixAddr = none)
    (hd : s.delay = none) : moveFromSregReg p 15#4 s =
      .next (delayedTo (pcPlus2 s) (mergeSize z (pcPlus2 s) (readSreg p s)) (p == .irp || p == .brp) s) := by
  have hend : moveFromSregReg p 15#4 s = complete
      (ending (pcPlus2 s) (.delayed (mergeSize z (pcPlus2 s) (readSreg p s)) (isModeReturn p)) true) s := by
    simp [moveFromSregReg, ha, hd, hz]
  exact hend.trans (complete_delayed _ _ _ hd)

/-- A return with the mark is not performed in the slot of a taken transfer (45_jump_branch.md R426; log 28). -/
theorem moveFromSregReg_return_slot {p : SReg} {z : Size} (hz : sregSize p = some z) (hp : isModeReturn p = true)
    {s : State} (ha : s.prefixAddr = none) (hd : s.delay.isSome = true) (hslot : SlotOk s) :
    moveFromSregReg p 15#4 s = .next (finished (pcPlus2 s) true false s) := by
  have hend : moveFromSregReg p 15#4 s = complete (ending (pcPlus2 s) .none true) s := by
    simp [moveFromSregReg, ha, hd, hz, hp]
  exact hend.trans (complete_plain _ _ _ hslot)

/-- A NOP in the slot of a delayed transfer: control goes to the target, and with the mark the mode follows U
(45_jump_branch.md R425). -/
theorem execNop_delayedTo (seq : Word) {target : Word} (ret : Bool) (s : State) (ht : target.getLsbD 0 = false) :
    ∃ t, execNop (delayedTo seq target ret s) = .next t ∧ t.pc = target ∧
      t.mode = if ret && s.flags.u then .user else s.mode := by
  have hslot : SlotOk (delayedTo seq target ret s) := fun d hd => by
    obtain rfl := Option.some.inj hd
    exact ht
  exact ⟨_, execNop_finished rfl hslot, rfl, rfl⟩

/-- Settles O51: RET, RETB, RETI and CLEAR of PC are moves of SRP, BRP, IRP and of the zero registers. -/
theorem returns : Obligations.Returns := by
  unfold Obligations.Returns
  refine ⟨fun s ha hd => ?outside, fun s ha hd => ?slot, fun s ha hd hslot => ?again⟩
  case outside =>
    have move {p : SReg} {z : Size} (hz : sregSize p = some z) := moveFromSregReg_pc hz ha hd
    exact ⟨move (p := .srp) rfl, move (p := .brp) rfl, move (p := .irp) rfl, move (p := .p0) rfl, move (p := .p4) rfl,
      move (p := .p8) rfl, fun _ _ hz => move hz⟩
  case slot =>
    have thenNop (p : SReg) (hz : sregSize p = some .dword) (ht : (readSreg p s).getLsbD 0 = false) :
        ∃ t₁ t₂, moveFromSregReg p 15#4 s = .next t₁ ∧ execNop t₁ = .next t₂ ∧ t₂.pc = readSreg p s ∧
          t₂.mode = if (p == .irp || p == .brp) && s.flags.u then .user else s.mode := by
      obtain ⟨t₂, hnop, hpc, hmode⟩ := execNop_delayedTo (pcPlus2 s) (p == .irp || p == .brp) s ht
      exact ⟨_, t₂, moveFromSregReg_pc hz ha hd, hnop, hpc, hmode⟩
    exact ⟨thenNop .irp rfl, thenNop .brp rfl, thenNop .srp rfl⟩
  case again =>
    exact ⟨moveFromSregReg_return_slot (p := .irp) rfl rfl ha hd hslot,
      moveFromSregReg_return_slot (p := .brp) rfl rfl ha hd hslot⟩

/-! ## O53: branches -/

/-- The offset field without its lowest bit. -/
theorem toNat_and_evenMask (o : BitVec 8) : (o &&& 0xFE#8).toNat = 2 * (o.toNat / 2) := by
  have hmask : o &&& 0xFE#8 = o >>> 1 <<< 1 := by
    ext i hi
    interval_cases i <;> simp
  rw [hmask, BitVec.toNat_shiftLeft, BitVec.toNat_ushiftRight, Nat.shiftRight_eq_div_pow, Nat.shiftLeft_eq]
  omega

/-- The displacement as a number: the even part of the field, less 256 if its lowest bit is set (45_jump_branch.md R401). -/
theorem branchDisp_eq_ofInt (o : BitVec 8) :
    branchDisp o = BitVec.ofInt 32 (2 * (o.toNat / 2) - 256 * (o.toNat % 2)) := by
  have heven : (o &&& 0xFE#8).setWidth 32 = BitVec.ofInt 32 (2 * (o.toNat / 2)) := by
    apply BitVec.eq_of_toNat_eq
    rw [BitVec.toNat_setWidth, toNat_and_evenMask]
    exact_mod_cast (BitVec.toNat_ofNat (2 * (o.toNat / 2)) 32).symm
  have hsign : (if o.getLsbD 0 then 256#32 else 0#32) = BitVec.ofInt 32 (256 * (o.toNat % 2) : Nat) := by
    rw [← BitVec.testBit_toNat, Nat.testBit_zero]
    rcases Nat.mod_two_eq_zero_or_one o.toNat with h | h <;> rw [h] <;> rfl
  rw [branchDisp, heven, hsign, BitVec.sub_eq_add_neg, ← BitVec.ofInt_neg, ← BitVec.ofInt_add, ← Int.sub_eq_add_neg]
  push_cast
  rfl

section
variable {s : State} {c : Cond} {disp seq : Word} (hd : s.delay = none)
include hd

theorem branch_taken (hc : condHolds c s.flags = true) :
    branch c disp seq s = .next (delayedTo seq (seq + disp) false s) := by
  rw [branch, if_pos hc]
  exact complete_delayed _ _ _ hd

theorem branch_notTaken (hc : condHolds c s.flags = false) : branch c disp seq s = .next (finished seq true false s) := by
  rw [branch, if_neg (by simp [hc])]
  exact complete_plain _ _ _ (slotOk_of_noDelay hd)

end

/-- The in-line offset of the long form is an operand that may be read. -/
theorem operandReady_branchLong {s : State} (ha : s.prefixAddr = none) (hd : s.delay = none) (hre : s.resume = none)
    (h : Plain s) (hf : Fetchable s (s.pc + 2#32)) : OperandReady true 15#4 2 s where
  plain := h
  noRestart := hre
  slotForm := by simp [hd]
  noAssign := fun _ _ => ha
  slot := slotOk_of_noDelay hd
  bytes := by
    rw [if_pos (isInline_pc ha), operandAddress_of_noRestart hre, ha, Option.getD_none, readReg_pc,
      pcPlus2_of_noRestart hre]
    exact hf

/-- The long form is the branch by the sign-extended word after it (45_jump_branch.md R402). -/
theorem branchLong_branch (word : Half) (c : Cond) {s : State} (ha : s.prefixAddr = none) (hd : s.delay = none)
    (hre : s.resume = none) (h : Plain s) (hf : Fetchable s (s.pc + 2#32)) :
    ∃ s₁, ReadOnly true s s₁ ∧ branchLong word c s =
      branch c (signExtended .word (loadBytes s.mem (s.pc + 2#32) 2)) (s.pc + 4#32) s₁ := by
  have hinline : isInline true 15#4 s = true := isInline_pc ha
  have hend : endAddress true 15#4 2 s = s.pc + 4#32 := by
    rw [endAddress_of_inline hinline, pcPlus2_of_noRestart hre, BitVec.add_assoc]
    rfl
  have hvalue : memoryValue 15#4 2 s = loadBytes s.mem (s.pc + 2#32) 2 := by
    rw [memoryValue, operandAddress_of_noRestart hre, ha, Option.getD_none, readReg_pc, pcPlus2_of_noRestart hre]
  obtain ⟨s₁, hread, hload⟩ := loadOperand_ready { word := word, endPc := s.pc + 4#32 } (.inl le_rfl)
    (operandReady_branchLong ha hd hre h hf)
  refine ⟨s₁, hinline ▸ hread, ?_⟩
  simp only [branchLong, transferRefusal_none ha hd, hend, hload, updateAddress_pc, Act.finish, hvalue,
    signExtended_eq_sextSize]

/-- Settles O53: both forms are `branch` with their displacement. -/
theorem branches : Obligations.Branches := by
  unfold Obligations.Branches
  refine ⟨fun s c o ha hd => ?short, fun s c ha hd hre h hf => ?long⟩
  case short =>
    have hbranch : exec (.bcc c o) s = branch c (branchDisp o) (pcPlus2 s) s := by
      show branchShort c o s = _
      rw [branchShort, transferRefusal_none ha hd]
    rw [hbranch, ← branchDisp_eq_ofInt]
    exact ⟨branch_taken hd, branch_notTaken hd⟩
  case long =>
    obtain ⟨s₁, hread, hbranch⟩ := branchLong_branch (encode (.bcc16 c)) c ha hd hre h hf
    have hd₁ : s₁.delay = none := (readOnly_delay hread).trans hd
    have hflags : s₁.flags = s.flags := by rw [hread.1]
    have hexec : exec (.bcc16 c) s = _ := hbranch
    refine ⟨s₁, hread, ?_⟩
    rw [hexec, ← hflags]
    exact ⟨branch_taken hd₁, branch_notTaken hd₁⟩

/-! ## O54: the jump family -/

/-- A member that saves a return address writes its link register alone (45_jump_branch.md R406, R413). -/
theorem saveLink_link (p : SReg) (skip seq : Word) (s : State) :
    saveLink { link := some p, skip := skip, toUser := false } seq s = writeSreg p (seq + skip) s := rfl

theorem saveLink_jump (seq : Word) (s : State) : saveLink kindJump seq s = s := rfl

/-- JMPU saves nothing; the mode follows U (45_jump_branch.md R408). -/
theorem saveLink_jmpu (seq : Word) (s : State) :
    saveLink kindJmpu seq s = { s with mode := if s.flags.u then .user else s.mode } := by
  show (if s.flags.u then { s with mode := .user } else s) = _
  split <;> rfl

theorem jumpWith_even (k : JumpKind) (seq : Word) {target : Word} {s : State} (hd : s.delay = none)
    (ht : target.getLsbD 0 = false) : jumpWith k seq target s = .next (jumped target true (saveLink k seq s)) :=
  complete_jump seq target true ((saveLink_kept k seq s).delay.trans hd) ht

theorem jumpReg_even (k : JumpKind) {r : RegNo} {s : State} (ha : s.prefixAddr = none) (hd : s.delay = none)
    (ht : (readReg r s).getLsbD 0 = false) :
    jumpReg k r s = .next (jumped (readReg r s) true (saveLink k (pcPlus2 s) s)) := by
  simp only [jumpReg, transferRefusal_none ha hd, jumpWith_even k _ hd ht]

/-- The memory form: the target is read, the address register updated, then the link saved (40_addressing.md R205). -/
theorem jumpMem_even (k : JumpKind) (word : Half) {md : Bool} {r : RegNo} {s : State} (h : OperandReady md r 4 s)
    (hd : s.delay = none) (ht : (memoryValue r 4 s).getLsbD 0 = false) :
    ∃ s₁, ReadOnly (isInline md r s) s s₁ ∧ jumpMem k word md r s = .next (jumped (memoryValue r 4 s) true
      (saveLink k (endAddress md r 4 s) (updateAddress md r 4 (operandAddress r s) s₁))) := by
  obtain ⟨s₁, hread, hload⟩ := loadOperand_ready { word := word, endPc := endAddress md r 4 s } (.inr rfl) h
  have hd₁ : (updateAddress md r 4 (operandAddress r s) s₁).delay = none :=
    (updateAddress_delay ..).trans ((readOnly_delay hread).trans hd)
  refine ⟨s₁, hread, ?_⟩
  simp only [jumpMem, hd, Option.isSome_none, Bool.false_eq_true, if_false, hload, Act.finish, jumpWith_even k _ hd₁ ht]

theorem updateAddress_sregs (md : Bool) (r : RegNo) (n : Nat) (a : Word) (s : State) :
    (updateAddress md r n a s).sregs = s.sregs := by
  unfold updateAddress
  split
  · split <;> simp
  · rfl

theorem updateAddress_mode (md : Bool) (r : RegNo) (n : Nat) (a : Word) (s : State) :
    (updateAddress md r n a s).mode = s.mode := by
  unfold updateAddress
  split
  · split <;> simp
  · rfl

/-- The memory form of a member that saves a return address: the other special registers are those before it. -/
theorem jumpMem_link (p : SReg) (skip : Word) (word : Half) {md : Bool} {r : RegNo} {s : State} (h : OperandReady md r 4 s)
    (hd : s.delay = none) (ht : (memoryValue r 4 s).getLsbD 0 = false) (hp : p = .srp ∨ p = .irp ∨ p = .brp) :
    ∃ s₁, ReadOnly (isInline md r s) s s₁ ∧
      jumpMem { link := some p, skip := skip, toUser := false } word md r s = .next (jumped (memoryValue r 4 s) true
        { updateAddress md r 4 (operandAddress r s) s₁ with
          sregs := (writeSreg p (endAddress md r 4 s + skip) s).sregs }) := by
  obtain ⟨s₁, hread, hjump⟩ := jumpMem_even { link := some p, skip := skip, toUser := false } word h hd ht
  refine ⟨s₁, hread, ?_⟩
  have hsregs : (updateAddress md r 4 (operandAddress r s) s₁).sregs = s.sregs :=
    (updateAddress_sregs ..).trans (by rw [hread.1])
  rw [hjump, saveLink_link]
  rcases hp with rfl | rfl | rfl <;> simp only [writeSreg, hsregs]

theorem jumpMem_jmpu (word : Half) {md : Bool} {r : RegNo} {s : State} (h : OperandReady md r 4 s) (hd : s.delay = none)
    (ht : (memoryValue r 4 s).getLsbD 0 = false) :
    ∃ s₁, ReadOnly (isInline md r s) s s₁ ∧ jumpMem kindJmpu word md r s = .next (jumped (memoryValue r 4 s) true
      { updateAddress md r 4 (operandAddress r s) s₁ with mode := if s.flags.u then .user else s.mode }) := by
  obtain ⟨s₁, hread, hjump⟩ := jumpMem_even kindJmpu word h hd ht
  refine ⟨s₁, hread, ?_⟩
  have hmode : (updateAddress md r 4 (operandAddress r s) s₁).mode = s.mode :=
    (updateAddress_mode ..).trans (by rw [hread.1])
  have hflags : (updateAddress md r 4 (operandAddress r s) s₁).flags = s.flags :=
    (updateAddress_flags ..).trans (by rw [hread.1])
  rw [hjump, saveLink_jmpu]
  simp only [hmode, hflags]

/-- Settles O54: a member without context skips nothing beyond the instruction. -/
theorem jumps : Obligations.Jumps := by
  unfold Obligations.Jumps
  refine ⟨fun s r ha hd ht => ?register, fun s r md h hd ht => ?memory⟩
  case register =>
    have jump (k : JumpKind) := jumpReg_even k ha hd ht
    have plain (p : SReg) : jumpReg { link := some p, skip := 0#32, toUser := false } r s =
        .next (jumped (readReg r s) true (writeSreg p (pcPlus2 s) s)) := by
      rw [jump, saveLink_link, BitVec.add_zero]
    exact ⟨jump kindJump, plain .srp, plain .irp, jump kindJsrc, jump kindJirc, jump kindJbrc⟩
  case memory =>
    have context (p : SReg) (hp : p = .srp ∨ p = .irp ∨ p = .brp) (word : Half) := jumpMem_link p 4#32 word h hd ht hp
    have plain (p : SReg) (hp : p = .srp ∨ p = .irp ∨ p = .brp) (word : Half) := by
      simpa only [BitVec.add_zero] using jumpMem_link p 0#32 word h hd ht hp
    exact ⟨jumpMem_even kindJump _ h hd ht, plain .srp (by simp) _, plain .irp (by simp) _, context .srp (by simp) _,
      context .irp (by simp) _, context .brp (by simp) _, jumpMem_jmpu _ h hd ht⟩

/-! ## O55: BREAK -/

/-- The entry of BREAK n, eight bytes apart from the next (45_jump_branch.md R415). -/
theorem breakOffset_eq_ofNat (n : BitVec 4) : (n.setWidth 32 <<< 3 : Word) = BitVec.ofNat 32 (8 * n.toNat) := by
  apply BitVec.eq_of_toNat_eq
  rw [BitVec.toNat_shiftLeft, BitVec.toNat_setWidth, BitVec.toNat_ofNat, Nat.shiftLeft_eq]
  omega

theorem ibrValue_even (s : State) : (ibrValue s).getLsbD 0 = false := by
  rw [ibrValue, BitVec.getLsbD_append]
  rfl

/-- The transition to supervisor mode in the words of the claims. -/
theorem enterSupervisor_eq_trapped (s : State) : enterSupervisor s = trapped s := rfl

/-- Settles O55: IBR and the offset are even, so the jump is made. -/
theorem breakInstruction : Obligations.BreakInstruction := by
  unfold Obligations.BreakInstruction
  intro s n ha hd
  have htarget : (ibrValue s + BitVec.ofNat 32 (8 * n.toNat)).getLsbD 0 = false := even_add (ibrValue_even s) (by omega)
  show execBreakN n s = _
  rw [execBreakN, transferRefusal_none ha hd, breakOffset_eq_ofNat]
  exact complete_jump _ _ _ hd htarget

end Sys2Proof.Proofs
end

section
/-! O58 and O59: SBFS and RBF. The dwords that they write and read are the bytes of a record, and a field of it is found at
its offset; what RBF makes of the record is said by the kind of cycle that the record names. -/

namespace Sys2Proof.Proofs

-- Declarations are checked one after another: many at once need more threads than the memory limit of the check allows.
set_option Elab.async false

open Sys2Proof.Machine Sys2Proof.Laws

/-! ## O58: the record written -/

/-- The bytes of a record in memory. -/
theorem byte_of_recordDword (l : Config.RecordLayout) (r : StatusRecord) (k : Nat) {i : Nat} (hi : i < 4) :
    (recordDword l r k).extractLsb' (8 * i) 8 = recordByte l r (4 * k + i) := by
  rw [← byte_of_shift, recordDword, byte_of_joinBytes _ i hi]

/-- The last `n` dwords of a record at ascending addresses: its bytes, and no other byte changes. -/
theorem storeRecord_stores (c : Ctx) (r : StatusRecord) (n : Nat) : ∀ {a : Word} {s : State}, n ≤ 4 → Plain s →
    memWf s.mem = true → Writable s a (4 * n) → ∃ t, StoreFrame s t ∧
      (∀ i, i < 4 * n → memRead t.mem (physIndex a i) = recordByte s.layout r (4 * (4 - n) + i)) ∧
      (∀ x, (∀ i, i < 4 * n → x ≠ physIndex a i) → memRead t.mem x = memRead s.mem x) ∧
      storeRecord c r n none a s = .done () t := by
  induction n with
  | zero => exact fun {_ s} _ _ _ _ => ⟨s, .refl s, nofun, fun _ _ => rfl, rfl⟩
  | succ n ih =>
    intro a s hn h hm hw
    obtain ⟨s₁, hwritten, hdone⟩ := dataWrite_plain c (recordDword s.layout r (3 - n)) h hm le_rfl
      fun i hi => hw i (by omega)
    have hframe := StoreFrame.of_writtenAt hwritten
    obtain ⟨-, -, hstored, -⟩ := hwritten
    have hw₁ : Writable s₁ (a + BitVec.ofNat 32 4) (4 * n) := hframe.writable fun i hi => by
      rw [physIndex_add]
      exact hw _ (by omega)
    obtain ⟨t, hrest, hbytes, hothers, hstore⟩ := ih (by omega) (hframe.plain h) (dataWrite_keeps_wf hdone hm) hw₁
    have hlayout : s₁.layout = s.layout := by rw [hframe.frame]
    refine ⟨t, hframe.trans hrest, fun i hi => ?_, fun x hx => ?_, ?_⟩
    · rcases Nat.lt_or_ge i 4 with hlow | hhigh
      · have hkept : memRead t.mem (physIndex a i) = memRead s₁.mem (physIndex a i) := hothers _ fun j hj he => by
          rw [physIndex_add] at he
          have := physIndex_injective (show i < physSize by unfold physSize; omega)
            (show 4 + j < physSize by unfold physSize; omega) he
          omega
        rw [hkept, hstored.1 i hlow, byte_of_recordDword _ _ _ hlow, show 4 - (n + 1) = 3 - n by omega]
      · have hbyte := hbytes (i - 4) (by omega)
        rw [physIndex_add, show 4 + (i - 4) = i by omega, hlayout] at hbyte
        rw [hbyte, show 4 * (4 - n) + (i - 4) = 4 * (4 - (n + 1)) + i by omega]
    · rw [hothers x fun i hi => by rw [physIndex_add]; exact hx _ (by omega)]
      exact hstored.2 x fun i hi => hx i (by omega)
    · simp only [storeRecord, hdone, Act.andThen]
      exact hstore

/-- A field whose bytes stand in memory is the datum there. -/
theorem loadBytes_field {m : List Host.Cell} {a v : Word} {l : Config.RecordLayout} {r : StatusRecord} {off n : Nat}
    (hmem : ∀ i, i < 16 → memRead m (physIndex a i) = recordByte l r i) (hoff : off + n ≤ 16)
    (hfield : ∀ j, j < n → recordByte l r (off + j) = (v >>> (8 * j)).setWidth 8) :
    loadBytes m (a + BitVec.ofNat 32 off) n = joinBytes (fun j => (v >>> (8 * j)).setWidth 8) n := by
  rw [loadBytes_eq_joinBytes]
  exact joinBytes_congr fun j hj => by rw [physIndex_add, hmem _ (by omega), hfield j hj]

/-- The sixteen bytes of a record in memory are its fields, each at its offset (60_exceptions.md R481). -/
theorem recordAt_of_bytes {m : List Host.Cell} {a : Word} {l : Config.RecordLayout} {r : StatusRecord} (h : LayoutOk l)
    (hmem : ∀ i, i < 16 → memRead m (physIndex a i) = recordByte l r i) :
    loadBytes m (a + BitVec.ofNat 32 l.pc) 4 = r.pc ∧
      loadBytes m (a + BitVec.ofNat 32 l.state) 2 = r.state.setWidth 32 ∧
      loadBytes m (a + BitVec.ofNat 32 l.instr) 2 = r.instr.setWidth 32 ∧
      loadBytes m (a + BitVec.ofNat 32 l.addr) 4 = r.addr ∧ loadBytes m (a + BitVec.ofNat 32 l.data) 4 = r.data := by
  obtain ⟨hpc, hstate, hinstr, haddr, hdata⟩ := recordByte_of_layoutOk h r
  have hfits := h.1
  simp only [List.mem_cons, forall_eq_or_imp, List.not_mem_nil, false_implies, implies_true, and_true] at hfits
  obtain ⟨lpc, lstate, linstr, laddr, ldata⟩ := hfits
  have dword (v : Word) := (joinBytes_of_bytes v).1
  have half (v : Half) : joinBytes (fun j => ((v.setWidth 32 : Word) >>> (8 * j)).setWidth 8) 2 = v.setWidth 32 := by
    simp [(joinBytes_of_bytes _).2]
  exact ⟨(loadBytes_field hmem lpc hpc).trans (dword _), (loadBytes_field hmem lstate hstate).trans (half _),
    (loadBytes_field hmem linstr hinstr).trans (half _), (loadBytes_field hmem laddr haddr).trans (dword _),
    (loadBytes_field hmem ldata hdata).trans (dword _)⟩

/-- Settles O58: no conditional test stands before the four dwords, and their bytes are the record's. -/
theorem saveStatus : Obligations.SaveStatus := by
  unfold Obligations.SaveStatus
  intro s d md hlayout h
  have hcycle : restartCycle s = none := by simp [restartCycle, h.noRestart]
  obtain ⟨s₁, hframe, hbytes, hothers, hstore⟩ := storeRecord_stores
    { word := encode (.sbfs md d), endPc := endAddress md d 16 s } s.hidden 4 le_rfl h.plain h.memory h.bytes
  obtain ⟨hpc, hstate, hinstr, haddr, hdata⟩ := recordAt_of_bytes hlayout fun i hi => by simpa using hbytes i hi
  refine ⟨s₁, ⟨hframe.frame, hpc, hstate, hinstr, haddr, hdata, hothers, hframe.breakpoint⟩, ?_⟩
  show Machine.saveStatus (encode (.sbfs md d)) md d s = _
  simp only [Machine.saveStatus, operandRefusal_none h.slotForm h.noAssign, hcycle, hstore, Act.finish]
  exact complete_plain _ _ _ (slotOk_of_delay ((updateAddress_delay ..).trans hframe.delay) h.slot)

/-! ## O59: the record read -/

/-- The dwords at ascending addresses hold the bytes that memory holds. -/
theorem byteOfDwords_loadBytes (m : List Host.Cell) (a : Word) {j : Nat} (hj : j < 16) :
    byteOfDwords #v[loadBytes m a 4, loadBytes m (a + 4#32) 4, loadBytes m (a + 8#32) 4, loadBytes m (a + 12#32) 4] j =
      memRead m (physIndex a j) := by
  have dword (k : Nat) : (loadBytes m (a + BitVec.ofNat 32 (4 * k)) 4 >>> (8 * (j % 4))).setWidth 8 =
      memRead m (physIndex a (4 * k + j % 4)) := by
    rw [loadBytes_eq_joinBytes, byte_of_joinBytes _ _ (by omega), physIndex_add]
  have hquot : j / 4 = 0 ∨ j / 4 = 1 ∨ j / 4 = 2 ∨ j / 4 = 3 := by omega
  rw [byteOfDwords, ← Nat.div_add_mod j 4, ← dword (j / 4), Nat.div_add_mod]
  rcases hquot with h | h | h | h <;> rw [h] <;> simp

/-- RBF reads the record that stands at its operand (60_exceptions.md R481). -/
theorem recordOfDwords_loadBytes {l : Config.RecordLayout} (h : LayoutOk l) (m : List Host.Cell) (a : Word) :
    recordOfDwords l
      #v[loadBytes m a 4, loadBytes m (a + 4#32) 4, loadBytes m (a + 8#32) 4, loadBytes m (a + 12#32) 4] =
      recordAt l m a := by
  have hfits := h.1
  simp only [List.mem_cons, forall_eq_or_imp, List.not_mem_nil, false_implies, implies_true, and_true] at hfits
  obtain ⟨lpc, lstate, linstr, laddr, ldata⟩ := hfits
  have field {off n : Nat} (hoff : off + n ≤ 16) :
      joinBytes (fun i => byteOfDwords #v[loadBytes m a 4, loadBytes m (a + 4#32) 4, loadBytes m (a + 8#32) 4,
        loadBytes m (a + 12#32) 4] (off + i)) n = loadBytes m (a + BitVec.ofNat 32 off) n := by
    rw [loadBytes_eq_joinBytes m (a + BitVec.ofNat 32 off)]
    exact joinBytes_congr fun i hi => by rw [byteOfDwords_loadBytes m a (by omega), physIndex_add]
  simp only [recordOfDwords, recordAt, field lpc, field lstate, field linstr, field laddr, field ldata]

/-- One dword of several that may be read, and what is left. -/
theorem readOperand_dwords (c : Ctx) {inLine : Bool} {s : State} {a : Word} {n : Nat} (h : Plain s)
    (hready : DwordsReady inLine s a (n + 1)) :
    ∃ t, ReadOnly inLine s t ∧ Plain t ∧ DwordsReady inLine t (a + 4#32) n ∧
      readOperand c inLine none a 4 s = .done (loadBytes s.mem a 4) t := by
  obtain ⟨t, hread, hpre, hdone⟩ := readOperand_dword c h (dwordsReady_head hready)
  exact ⟨t, hread, readOnly_plain hread h, dwordsReady_tail hready (.of_readOnly hread) hpre, hdone⟩

/-- The four dwords of a record are read in turn, in line or not. -/
theorem loadRecord_loads (c : Ctx) {inLine : Bool} {s : State} {a : Word} (hlayout : LayoutOk s.layout) (h : Plain s)
    (hready : DwordsReady inLine s a 4) :
    ∃ t, ReadOnly inLine s t ∧ loadRecord c inLine none a s = .done (recordAt s.layout s.mem a) t := by
  obtain ⟨s₁, hread₁, h₁, hready₁, hdone₁⟩ := readOperand_dwords c h hready
  obtain ⟨s₂, hread₂, h₂, hready₂, hdone₂⟩ := readOperand_dwords c h₁ hready₁
  obtain ⟨s₃, hread₃, h₃, hready₃, hdone₃⟩ := readOperand_dwords c h₂ hready₂
  obtain ⟨s₄, hread₄, -, -, hdone₄⟩ := readOperand_dwords c h₃ hready₃
  have hread := readOnly_trans (readOnly_trans (readOnly_trans hread₁ hread₂) hread₃) hread₄
  have hlayout₄ : s₄.layout = s.layout := by rw [hread.1]
  have hmem₁ : s₁.mem = s.mem := readOnly_mem hread₁
  have hmem₂ : s₂.mem = s.mem := (readOnly_mem hread₂).trans hmem₁
  have hmem₃ : s₃.mem = s.mem := (readOnly_mem hread₃).trans hmem₂
  have h8 : a + 4#32 + 4#32 = a + 8#32 := BitVec.add_assoc a 4#32 4#32
  have h12 : a + 8#32 + 4#32 = a + 12#32 := BitVec.add_assoc a 8#32 4#32
  rw [h8] at hdone₃
  rw [h8, h12] at hdone₄
  refine ⟨s₄, hread, ?_⟩
  simp only [loadRecord, hdone₁, hdone₂, hdone₃, hdone₄, Act.andThen, hmem₁, hmem₂, hmem₃, hlayout₄]
  rw [recordOfDwords_loadBytes hlayout]

/-! ## What a record makes RBF do -/

/-- RBF restarts what the record at its operand describes, after the address register and the flags (R431). -/
theorem execRbf_restart {md : Bool} {r : RegNo} {s : State} (hlayout : LayoutOk s.layout) (h : Plain s)
    (hre : s.resume = none) (hd : s.delay = none) (hassign : md = true → r = 15#4 → s.prefixAddr = none)
    (hready : DwordsReady (isInline md r s) s (operandAddress r s) 4) :
    ∃ s₁, ReadOnly (isInline md r s) s s₁ ∧ execRbf md r s =
      restart (memoryForm (decodeWord (recordAt s.layout s.mem (operandAddress r s)).instr))
        (recordAt s.layout s.mem (operandAddress r s))
        (restoreMode (recordAt s.layout s.mem (operandAddress r s))
          (updateAddress md r 16 (operandAddress r s) s₁)) := by
  have hcycle : restartCycle s = none := by simp [restartCycle, hre]
  have href : operandRefusal md r s = none := operandRefusal_none (by simp [hd]) hassign
  obtain ⟨s₁, hread, hload⟩ := loadRecord_loads
    { word := encode (.rbf md r), endPc := endAddress md r 16 s } hlayout h hready
  refine ⟨s₁, hread, ?_⟩
  simp only [execRbf, hd, Option.isSome_none, Bool.false_eq_true, if_false, href, hcycle, hload, Act.finish]

/-- Restart set up in the words of the claims. -/
theorem setRestart_restoreMode (r : StatusRecord) (pc next : Word) (cycle : Option RestartCycle) (pending : Option Word)
    (s : State) : setRestart r pc { next := next, cycle := cycle } pending (restoreMode r s) =
      resumed r pc next cycle pending s := rfl

section
variable {form : Option MemoryForm} {r : StatusRecord}

/-- A record of a fetch (60_exceptions.md R490). -/
theorem restart_fetch (s : State) (hret : r.state.getLsbD 3 = true → r.state.getLsbD 2 = true)
    (hpc : r.pc.getLsbD 0 = false) (hkind : r.state.getLsbD 4 = false) (hsecond : r.state.getLsbD 5 = false)
    (haddr : r.addr.getLsbD 0 = false) (hnext : r.state.getLsbD 2 = false → r.pc = r.addr + 2#32) :
    restart form r (restoreMode r s) = .next (resumed r r.addr (r.addr + 2#32) none
      (if r.state.getLsbD 1 then some r.data else none) s) := by
  have hmark : ¬ (r.state.getLsbD 3 && !r.state.getLsbD 2) = true := by simpa using hret
  have hagrees : ¬ (r.state.getLsbD 5 || !r.state.getLsbD 2 && !r.state.getLsbD 0 && r.pc != r.addr + 2#32) = true := by
    rw [hsecond]
    simpa using fun h _ => hnext h
  have hsucc : (if r.state.getLsbD 2 then r.addr + 2#32 else r.pc) = r.addr + 2#32 := by
    split
    · rfl
    · next h => exact hnext (by simpa using h)
  unfold restart
  rw [if_neg hmark, if_neg (Bool.eq_false_iff.1 hkind), restartFetch, if_neg hagrees, if_neg (Bool.eq_false_iff.1 haddr),
    if_neg (Bool.eq_false_iff.1 hpc), hsucc, setRestart_restoreMode]

/-- A record of a data cycle (60_exceptions.md R490). -/
theorem restart_data {m : MemoryForm} {next : Word} (s : State)
    (hret : r.state.getLsbD 3 = true → r.state.getLsbD 2 = true) (hpc : r.pc.getLsbD 0 = false)
    (hkind : r.state.getLsbD 4 = true) (hsplit : r.state.getLsbD 5 = true → 4 < r.addr.toNat % 4 + m.unit)
    (hnext : next = r.pc - BitVec.ofNat 32 (if m.md && m.reg == 15#4 && !r.state.getLsbD 1 && !r.state.getLsbD 2 then
      (if m.bytes = 1 then 2 else m.bytes) else 0)) :
    restart (some m) r (restoreMode r s) = .next (resumed r (next - 2#32) next
      (some { instr := r.instr, addr := r.addr, data := r.data, second := r.state.getLsbD 5 })
      (if r.state.getLsbD 1 then some r.addr else none) s) := by
  have hmark : ¬ (r.state.getLsbD 3 && !r.state.getLsbD 2) = true := by simpa using hret
  have hcrosses : ¬ (r.state.getLsbD 5 && !crosses r.addr m.unit) = true := by simpa [crosses] using hsplit
  have hsucc : (if r.state.getLsbD 2 then r.pc else r.pc -
      (if m.md && m.reg == 15#4 && !r.state.getLsbD 1 then BitVec.ofNat 32 (inlineStep m.bytes) else 0#32)) = next := by
    rw [hnext]
    cases r.state.getLsbD 2 with
    | true => simp
    | false =>
      simp only [Bool.false_eq_true, if_false, Bool.not_false, Bool.and_true]
      split <;> rfl
  unfold restart
  rw [if_neg hmark, if_pos hkind]
  show restartData m r _ = _
  rw [restartData, if_neg hcrosses, if_neg (Bool.eq_false_iff.1 hpc), hsucc,
    setRestart_restoreMode]

/-- A record that contradicts itself (60_exceptions.md R488; log 24). -/
theorem restart_inconsistent (s : State) (h : (r.state.getLsbD 3 = true ∧ r.state.getLsbD 2 = false) ∨
    (r.state.getLsbD 4 = true ∧ form = none) ∨
    (r.state.getLsbD 4 = true ∧ r.state.getLsbD 5 = true ∧ ∃ m, form = some m ∧ r.addr.toNat % 4 + m.unit ≤ 4) ∨
    (r.state.getLsbD 4 = false ∧ r.state.getLsbD 5 = true) ∨
    (r.state.getLsbD 4 = false ∧ r.state.getLsbD 2 = false ∧ r.state.getLsbD 0 = false ∧ r.pc ≠ r.addr + 2#32)) :
    restart form r s = .refused .inconsistentRecord := by
  unfold restart
  split
  · rfl
  · next hmark =>
    rcases h with ⟨h3, h2⟩ | ⟨h4, rfl⟩ | ⟨h4, h5, m, rfl, hm⟩ | ⟨h4, h5⟩ | ⟨h4, h2, h0, hpc⟩
    · exact absurd (by rw [h3, h2]; rfl) hmark
    · rw [if_pos h4]
    · rw [if_pos h4]
      exact if_pos (by simpa [h5, crosses] using hm)
    · rw [if_neg (Bool.eq_false_iff.1 h4)]
      exact if_pos (by simp [h5])
    · rw [if_neg (Bool.eq_false_iff.1 h4)]
      exact if_pos (by rw [h2, h0]; simp [hpc])

end

/-- Settles O59: the record is read, then restarted by its kind. -/
theorem returnFromBusFault : Obligations.ReturnFromBusFault := by
  unfold Obligations.ReturnFromBusFault
  rintro s r md rec hlayout h hre hd hassign hb rfl
  obtain ⟨s₁, hread, hrbf⟩ := execRbf_restart hlayout h hre hd hassign hb
  have hexec : exec (.rbf md r) s = _ := hrbf
  refine ⟨fun hret hpc => ⟨fun hkind hsecond haddr hnext => ?fetch, fun m next hkind hform hsplit hnext => ?data⟩,
    fun hbad => ?inconsistent⟩
  case fetch => exact ⟨s₁, hread, hexec.trans (restart_fetch _ hret hpc hkind hsecond haddr hnext)⟩
  case data =>
    rw [hform] at hexec
    exact ⟨s₁, hread, hexec.trans (restart_data _ hret hpc hkind hsplit hnext)⟩
  case inconsistent => exact hexec.trans (restart_inconsistent _ hbad)

end Sys2Proof.Proofs
end

section
/-! O10: how a word can change the mode. `Between` is what the parts of a word leave alone, `Moves` lists how the mode can
change from one state to the next, and `exec_moves` says that a word changes it in no other way. -/

namespace Sys2Proof.Proofs

-- Declarations are checked one after another: many at once need more threads than the memory limit of the check allows.
set_option Elab.async false

open Sys2Proof.Machine Sys2Proof.Laws

/-! ## What decides the mode, in the parts of a word -/

/-- What the end of a word decides the mode from is the same in both states (45_jump_branch.md R408, R425, R431). -/
structure Between (s t : State) : Prop where
  /-- The operation mode. -/
  mode : t.mode = s.mode
  /-- The pending delayed transfer. -/
  delay : t.delay = s.delay
  /-- The user mode flag. -/
  u : t.flags.u = s.flags.u

theorem Between.refl (s : State) : Between s s := ⟨rfl, rfl, rfl⟩

theorem Between.trans {s t u : State} (h : Between s t) (h' : Between t u) : Between s u :=
  ⟨h'.mode.trans h.mode, h'.delay.trans h.delay, h'.u.trans h.u⟩

/-- Parts of a word keep the mode and the delayed transfer; some keep the flags too. -/
theorem Between.of_during {s t : State} (h : During s t) (hf : t.flags = s.flags) : Between s t :=
  ⟨h.mode, h.delay, congrArg Flags.u hf⟩

theorem Between.writeReg (r : RegNo) (v : Word) (s : State) : Between s (writeReg r v s) :=
  .of_during (.writeReg r v s) (writeReg_flags r v s)

theorem Between.updateAddress (md : Bool) (r : RegNo) (n : Nat) (a : Word) (s : State) :
    Between s (updateAddress md r n a s) :=
  .of_during (.updateAddress md r n a s) (updateAddress_flags md r n a s)

theorem Between.popIrq (s : State) : Between s (popIrq s).2 := .of_during (.popIrq s) (popIrq_flags s)

/-- The flags of a translation's state. -/
def TranslationFlags (f : Flags) : Translation → Prop
  | .ok _ t | .fault t | .gated t => t.flags = f

theorem noteException_flags (s : State) (va : Word) (l : Lookup) : (noteException s va l).flags = s.flags := by
  unfold Machine.noteException
  split <;> rfl

theorem noteCause_flags (s : State) (l : Lookup) : (noteCause s l).flags = s.flags := by
  unfold Machine.noteCause
  split <;> rfl

theorem translate_flags (va : Word) (write : Bool) (s : State) :
    TranslationFlags s.flags (Machine.translate va write s) := by
  unfold Machine.translate
  split
  · split
    · exact rfl
    · split
      · exact rfl
      · split <;> exact noteException_flags s va _
  · split
    · exact noteCause_flags s _
    · exact rfl

theorem popStep_flags (s : State) : (popStep s).2.flags = s.flags := by
  unfold popStep
  split <;> rfl

theorem mmuRead_flags (w : MmuWindow) (s : State) : (mmuRead w s).2.flags = s.flags := by
  unfold mmuRead
  split <;> rfl

theorem physRead_flags {pa v : Word} {n : Nat} {s t : State} (h : physRead pa n s = .ok v t) : t.flags = s.flags := by
  unfold physRead at h
  split at h
  · obtain ⟨-, rfl⟩ := Access.ok.inj h
    exact mmuRead_flags _ s
  · split at h
    · cases h
    · split at h
      · cases h
      · obtain ⟨-, rfl⟩ := Access.ok.inj h
        rfl

theorem physWrite_flags {pa v x : Word} {n : Nat} {s t : State} (h : physWrite pa n v s = .ok x t) :
    t.flags = s.flags := by
  unfold physWrite at h
  split at h
  · split at h
    · obtain ⟨-, rfl⟩ := Access.ok.inj h
      rfl
    · cases h
  · split at h
    · cases h
    · split at h
      · cases h
      · obtain ⟨-, rfl⟩ := Access.ok.inj h
        rfl

/-- The flags of a bus cycle's state, done or faulted. -/
def CycleFlags (f : Flags) : Cycle → Prop
  | .ok _ _ t | .fault _ t => t.flags = f
  | .refused _ => True

theorem busCycle_flags (datum : Option Word) (a : Word) (n : Nat) (s : State) :
    CycleFlags s.flags (busCycle datum a n s) := by
  have htrans := translate_flags a datum.isSome (popStep (popOutside (noteBreakpoint a s))).2
  rw [popStep_flags, popOutside_flags, noteBreakpoint_flags] at htrans
  unfold busCycle
  dsimp only
  split
  · next ht =>
    rw [ht] at htrans
    exact htrans
  · next ht =>
    rw [ht] at htrans
    split
    · exact htrans
    · trivial
  · next ht =>
    rw [ht] at htrans
    split
    · exact htrans
    · split
      · next ha =>
        cases datum with
        | none => exact (physRead_flags ha).trans htrans
        | some v => exact (physWrite_flags ha).trans htrans
      · trivial

/-- The state of a bus cycle, done or faulted, is that of a part of a word. -/
def CycleBetween (s : State) : Cycle → Prop
  | .ok _ _ t | .fault _ t => Between s t
  | .refused _ => True

theorem busCycle_between (datum : Option Word) (a : Word) (n : Nat) (s : State) :
    CycleBetween s (busCycle datum a n s) := by
  have hkeep := busCycle_keeps datum a n s
  have hflags := busCycle_flags datum a n s
  generalize busCycle datum a n s = c at hkeep hflags ⊢
  cases c with
  | ok v pa t => exact .of_during hkeep hflags
  | fault single t => exact .of_during hkeep hflags
  | refused r => trivial

/-! ## How a step can change the mode -/

/-- A handler has started or BREAK has been executed: supervisor mode, F set, nothing pending (60_exceptions.md R455). -/
structure Trapped (t : State) : Prop where
  /-- Supervisor mode. -/
  mode : t.mode = .supervisor
  /-- F is set. -/
  f : t.flags.f = true
  /-- No address is pending. -/
  noPrefix : t.prefixAddr = none
  /-- No delayed transfer is pending. -/
  noDelay : t.delay = none
  /-- No restart is pending. -/
  noResume : t.resume = none

/-- How the mode can change from one state to a later one (60_exceptions.md R455, R456, 10_state.md R68). -/
inductive ModeMove (s t : State) : Prop
  /-- It stays. -/
  | same (h : t.mode = s.mode)
  /-- An exception is taken or BREAK is executed. -/
  | trap (h : Trapped t)
  /-- JMPU and RBF, with U set. -/
  | byFlag (h : t.mode = .user) (hu : s.flags.u = true)
  /-- The slot of RETI or RETB ends with U set. -/
  | slotReturn (h : t.mode = .user) {d : Delay} (hd : s.delay = some d) (hret : d.ret = true) (hu : t.flags.u = true)

/-- If this is the end of a step that goes on, the mode has moved in one of the ways of `ModeMove`. -/
def Moves (s : State) (o : Host.Outcome State Fault Refusal) : Prop := ∀ t, o = .next t → ModeMove s t

/-- If this is the end of a step that goes on, a handler has started. -/
def Traps (o : Host.Outcome State Fault Refusal) : Prop := ∀ t, o = .next t → Trapped t

theorem Traps.moves {o : Host.Outcome State Fault Refusal} (h : Traps o) (s : State) : Moves s o :=
  fun t ht => .trap (h t ht)

theorem traps_fault (r : Fault) : Traps (.fault r) := fun _ h => by cases h

theorem traps_refused (r : Refusal) : Traps (.refused r) := fun _ h => by cases h

theorem moves_refused (s : State) (r : Refusal) : Moves s (.refused r) := (traps_refused r).moves s

theorem ModeMove.after {s s' t : State} (h : Between s s') (ht : ModeMove s' t) : ModeMove s t := by
  cases ht with
  | same hm => exact .same (hm.trans h.mode)
  | trap ht => exact .trap ht
  | byFlag hm hu => exact .byFlag hm (h.u ▸ hu)
  | slotReturn hm hd hret hu => exact .slotReturn hm (h.delay ▸ hd) hret hu

theorem Moves.after {s s' : State} {o : Host.Outcome State Fault Refusal} (h : Between s s') (ho : Moves s' o) :
    Moves s o :=
  fun t ht => .after h (ho t ht)

/-! ## Taking an exception -/

theorem acknowledge_f (e : Event) (s : State) : (acknowledge e s).flags.f = true := by
  cases e <;> rfl

/-- Each bus fault in a vector read sets F again (60_exceptions.md R455, R469). -/
theorem takeEvent_traps (n : Nat) : ∀ (e : Event) (s : State), Traps (takeEvent n e s) := by
  induction n with
  | zero => exact fun _ _ => traps_fault _
  | succ n ih =>
    intro e s
    have hkeep := busCycle_between none (vectorAddress (eventVector e) (acknowledge e s)) 4 (acknowledge e s)
    have hflags := busCycle_flags none (vectorAddress (eventVector e) (acknowledge e s)) 4 (acknowledge e s)
    unfold takeEvent
    dsimp only
    split
    · next hb =>
      rw [hb] at hkeep hflags
      intro t ht
      obtain ⟨-, rfl⟩ := enterHandler_next ht
      exact {
        mode := hkeep.mode.trans (acknowledge_taken e s).mode
        f := (congrArg Flags.f hflags).trans (acknowledge_f e s)
        noPrefix := rfl
        noDelay := rfl
        noResume := rfl }
    · exact ih _ _
    · exact traps_refused _

theorem takeException_traps (e : Event) (s : State) : Traps (takeException e s) := takeEvent_traps _ e s

/-! ## The parts of a word -/

/-- A part of a word: it is done and has kept what the mode is decided from, or it ends the word, if with a state then with
a handler started. -/
def Part {α : Type} (s : State) : Act α → Prop
  | .done _ t => Between s t
  | .stop o => Traps o

theorem Part.andThen {α β : Type} {s : State} {x : Act α} {k : α → State → Act β} (hx : Part s x)
    (hk : ∀ a t, Part t (k a t)) : Part s (x.andThen k) := by
  cases x with
  | stop o => exact hx
  | done a t =>
    have hka := hk a t
    simp only [Act.andThen]
    cases hkat : k a t with
    | done b u =>
      rw [hkat] at hka
      exact Between.trans hx hka
    | stop o =>
      rw [hkat] at hka
      exact hka

theorem Part.finish {α : Type} {s : State} {x : Act α} {k : α → State → Host.Outcome State Fault Refusal}
    (hx : Part s x) (hk : ∀ a t, Between s t → Moves s (k a t)) : Moves s (x.finish k) := by
  cases x with
  | stop o => exact Traps.moves hx s
  | done a t => exact hk a t hx

theorem Part.after {α : Type} {s t : State} {x : Act α} (h : Between s t) (hx : Part t x) : Part s x := by
  cases x with
  | stop o => exact hx
  | done a u => exact Between.trans h hx

theorem part_done {α : Type} (a : α) (s : State) : Part s (.done a s) := Between.refl s

theorem part_refused {α : Type} (s : State) (r : Refusal) : Part (α := α) s (.stop (.refused r)) := traps_refused r

theorem raiseData_part {α : Type} (c : Ctx) (b : BusFault) (s t : State) : Part s (raiseData (α := α) c b t) := by
  unfold raiseData
  split
  · exact traps_refused _
  · exact takeException_traps _ t

theorem readCycle_part (c : Ctx) (e : Word) (second : Bool) (first a : Word) (n : Nat) (s : State) :
    Part s (readCycle c e second first a n s) := by
  have hc := busCycle_between none a n s
  unfold readCycle
  split
  · next h =>
    rw [h] at hc
    exact hc
  · exact raiseData_part c _ s _
  · exact part_refused s _

theorem writeCycle_part (c : Ctx) (e : Word) (second : Bool) (datum a : Word) (n : Nat) (v : Word) (s : State) :
    Part s (writeCycle c e second datum a n v s) := by
  have hc := busCycle_between (some v) a n s
  unfold writeCycle
  split
  · next h =>
    rw [h] at hc
    exact hc
  · exact raiseData_part c _ s _
  · exact part_refused s _

theorem readSecond_part (c : Ctx) (a : Word) (n : Nat) (first : Word) (s : State) : Part s (readSecond c a n first s) :=
  (readCycle_part c a true first _ _ s).andThen fun _ t => part_done _ t

theorem dataRead_part (c : Ctx) (restart : Option RestartCycle) (a : Word) (n : Nat) (s : State) :
    Part s (dataRead c restart a n s) := by
  unfold dataRead
  split
  · split
    · exact readSecond_part c a n _ s
    · exact (readCycle_part ..).andThen fun _ t => readSecond_part c a n _ t
  · exact readCycle_part ..

theorem dataWrite_part (c : Ctx) (restart : Option RestartCycle) (a : Word) (n : Nat) (v : Word) (s : State) :
    Part s (dataWrite c restart a n v s) := by
  unfold dataWrite
  dsimp only
  split
  · split
    · exact writeCycle_part ..
    · exact (writeCycle_part ..).andThen fun _ t => writeCycle_part ..
  · exact writeCycle_part ..

theorem fetched_part (h : Half) (pa : Word) {s t : State} (ht : Between s t) : Part s (fetched h pa t) := by
  unfold fetched
  split
  · exact traps_refused _
  · exact ht

section
variable {onFault : Bool → State → Act Half} {s : State} (hf : ∀ single t, Part s (onFault single t))
include hf

theorem fetchCycle_part (a : Word) : Part s (fetchCycle onFault a s) := by
  have hc := busCycle_between none a (if a.getLsbD 1 then 2 else 4) s
  unfold fetchCycle
  split
  · next h =>
    rw [h] at hc
    exact fetched_part _ _ (Between.trans hc ⟨rfl, rfl, rfl⟩)
  · exact hf _ _
  · exact part_refused s _

theorem fetchHalf_part (a : Word) : Part s (fetchHalf onFault a s) := by
  unfold fetchHalf
  split
  · exact traps_fault _
  · split
    · split
      · exact fetched_part _ _ ⟨rfl, rfl, rfl⟩
      · exact fetchCycle_part hf a
    · exact fetchCycle_part hf a

end

theorem fetchInstr_part (s : State) : Part s (fetchInstr s) :=
  fetchHalf_part (onFault := fun single t => .stop (takeException (.busFault (fetchFault s single)) t))
    (fun single t => takeException_traps (.busFault (fetchFault s single)) t) s.pc

theorem inlineHalf_part (c : Ctx) (e : Word) (second : Bool) (first a : Word) (s : State) :
    Part s (inlineHalf c e second first a s) :=
  fetchHalf_part (fun _ t => raiseData_part c _ s t) a

theorem inlineSecond_part (c : Ctx) (a first : Word) (s : State) : Part s (inlineSecond c a first s) :=
  (inlineHalf_part ..).andThen fun _ t => part_done _ t

theorem inlineRead_part (c : Ctx) (restart : Option RestartCycle) (a : Word) (n : Nat) (s : State) :
    Part s (inlineRead c restart a n s) := by
  unfold inlineRead
  split
  · split
    · exact inlineSecond_part ..
    · exact (inlineHalf_part ..).andThen fun _ t => inlineSecond_part ..
  · exact (inlineHalf_part ..).andThen fun _ t => part_done _ t

theorem readOperand_part (c : Ctx) (inLine : Bool) (restart : Option RestartCycle) (a : Word) (n : Nat) (s : State) :
    Part s (readOperand c inLine restart a n s) := by
  unfold readOperand
  split
  · exact inlineRead_part ..
  · exact dataRead_part ..

theorem loadOperand_part (c : Ctx) (md : Bool) (r : RegNo) (n : Nat) (s : State) : Part s (loadOperand c md r n s) := by
  unfold loadOperand
  split
  · exact traps_refused _
  · exact (readOperand_part ..).andThen fun _ t => Between.updateAddress ..

/-- A suppressed store sets P alone (20_memory.md R76). -/
theorem unlessSuppressed_part {s : State} {x : Act Unit} (hx : Part s x) :
    Part s (if storeSuppressed s then .done () (noteSuppressed s) else x) := by
  split
  · exact ⟨rfl, rfl, rfl⟩
  · exact hx

theorem storeOperand_part (c : Ctx) (md : Bool) (r : RegNo) (n : Nat) (v : Word) (s : State) :
    Part s (storeOperand c md r n v s) := by
  unfold storeOperand
  split
  · exact traps_refused _
  · exact (unlessSuppressed_part (dataWrite_part ..)).andThen fun _ t => Between.updateAddress ..

theorem loadRegs_part (c : Ctx) (inLine : Bool) (n : Nat) :
    ∀ (restart : Option RestartCycle) (a : Word) (s : State), Part s (loadRegs c inLine n restart a s) := by
  induction n with
  | zero => exact fun _ _ s => part_done () s
  | succ n ih => exact fun _ _ s => (readOperand_part ..).andThen fun _ t => .after (.writeReg _ _ t) (ih ..)

theorem storeRegs_part (c : Ctx) (n : Nat) :
    ∀ (restart : Option RestartCycle) (a : Word) (s : State), Part s (storeRegs c n restart a s) := by
  induction n with
  | zero => exact fun _ _ s => part_done () s
  | succ n ih => exact fun _ _ s => (dataWrite_part ..).andThen fun _ t => ih ..

theorem storeRecord_part (c : Ctx) (r : StatusRecord) (n : Nat) :
    ∀ (restart : Option RestartCycle) (a : Word) (s : State), Part s (storeRecord c r n restart a s) := by
  induction n with
  | zero => exact fun _ _ s => part_done () s
  | succ n ih => exact fun _ _ s => (dataWrite_part ..).andThen fun _ t => ih ..

theorem loadRecord_part (c : Ctx) (inLine : Bool) (restart : Option RestartCycle) (a : Word) (s : State) :
    Part s (loadRecord c inLine restart a s) :=
  (readOperand_part ..).andThen fun _ _ => (readOperand_part ..).andThen fun _ _ =>
    (readOperand_part ..).andThen fun _ _ => (readOperand_part ..).andThen fun _ t => part_done _ t

theorem prefixOperand_part (c : Ctx) (md : Bool) (r : RegNo) (n : Nat) (s : State) :
    Part s (prefixOperand c md r n s) := by
  refine (readOperand_part ..).andThen fun v t => ?_
  show Between t _
  split
  · exact .writeReg ..
  · exact .refl t

/-! ## The ends of the families -/

/-- The end of a word that has changed neither the mode nor the delayed transfer: only the slot of RETI or RETB may change
the mode (45_jump_branch.md R425). -/
theorem complete_moves {s t : State} {e : Ending} (hm : t.mode = s.mode) (hd : t.delay = s.delay) :
    Moves s (complete e t) := by
  intro u hu
  unfold complete at hu
  split at hu
  · next d hslot =>
    split at hu
    · obtain ⟨-, rfl⟩ := jumpTo_next hu
      by_cases hret : (d.ret && t.flags.u) = true
      · have hboth : d.ret = true ∧ t.flags.u = true := by simpa using hret
        exact .slotReturn (if_pos hret) (hd ▸ hslot) hboth.1 hboth.2
      · exact .same ((if_neg hret).trans hm)
    · cases hu
  · split at hu
    · obtain rfl := Host.Outcome.next.inj hu
      exact .same hm
    · obtain ⟨-, rfl⟩ := jumpTo_next hu
      exact .same hm
    · obtain rfl := Host.Outcome.next.inj hu
      exact .same hm

theorem Between.complete_moves {s t : State} {e : Ending} (h : Between s t) : Moves s (complete e t) :=
  Proofs.complete_moves h.mode h.delay

/-- A jump outside a delay slot, if it goes on, leaves `jumped`. -/
theorem complete_jump_next {seq target : Word} {w : Bool} {s t : State}
    (h : complete (ending seq (.jump target) w) s = .next t) (hd : s.delay = none) : t = jumped target w s := by
  simp only [complete, hd, ending] at h
  obtain ⟨-, rfl⟩ := jumpTo_next h
  simp [jumped, settle]

theorem writeBack_moves (f : AluForm) (d : RegNo) (r : Word) (fl : Flags) (seq : Word) {s t : State} (h : Between s t) :
    Moves s (writeBack f d r fl seq t) := by
  unfold writeBack
  split
  · split
    · exact complete_moves h.mode h.delay
    · exact complete_moves ((writeReg_mode ..).trans h.mode) ((writeReg_delay ..).trans h.delay)
  · exact complete_moves h.mode h.delay

theorem aluCore_moves (f : AluForm) (g : Calc) (d : RegNo) (src : Word) (s : State) : Moves s (aluCore f g d src s) := by
  unfold aluCore
  split
  · exact moves_refused s _
  · split
    · exact moves_refused s _
    · exact writeBack_moves f d _ _ _ (.refl s)

theorem aluReg_moves (f : AluForm) (g : Calc) (d r : RegNo) (s : State) : Moves s (aluReg f g d r s) :=
  aluCore_moves f g d _ s

theorem aluMem_moves (f : AluForm) (g : Calc) (word : Half) (d : RegNo) (md : Bool) (r : RegNo) (s : State) :
    Moves s (aluMem f g word d md r s) := by
  unfold aluMem
  split
  · exact moves_refused s _
  · exact (loadOperand_part ..).finish fun _ _ ht => writeBack_moves f _ _ _ _ ht

theorem mulReg_moves (product : Word → Word → BitVec 64) (flags : BitVec 64 → Flags → Flags) (d r : RegNo) (s : State) :
    Moves s (mulReg product flags d r s) := by
  unfold mulReg
  split
  · exact moves_refused s _
  · split
    · exact moves_refused s _
    · exact complete_moves (writeReg_mode ..) (writeReg_delay ..)

theorem writeSreg_mode (p : SReg) (v : Word) (s : State) : (writeSreg p v s).mode = s.mode := by
  rw [writeSreg_form]

theorem moveToSregReg_moves (p : SReg) (r : RegNo) (s : State) : Moves s (moveToSregReg p r s) := by
  unfold moveToSregReg
  split
  · exact moves_refused s _
  · split
    · exact moves_refused s _
    · exact complete_moves (writeSreg_mode ..) (writeSreg_delay ..)

theorem moveToSregMem_moves (word : Half) (p : SReg) (md : Bool) (r : RegNo) (s : State) :
    Moves s (moveToSregMem word p md r s) := by
  unfold moveToSregMem
  split
  · exact moves_refused s _
  · exact (loadOperand_part ..).finish fun _ _ ht =>
      complete_moves ((writeSreg_mode ..).trans ht.mode) ((writeSreg_delay ..).trans ht.delay)

theorem moveFromSregReg_moves (p : SReg) (d : RegNo) (s : State) : Moves s (moveFromSregReg p d s) := by
  unfold moveFromSregReg
  split
  · exact moves_refused s _
  · split
    · exact moves_refused s _
    · split
      · split
        · exact complete_moves rfl rfl
        · exact complete_moves rfl rfl
      · exact (Between.writeReg ..).complete_moves

theorem moveFromSregMem_moves (word : Half) (p : SReg) (md : Bool) (d : RegNo) (s : State) :
    Moves s (moveFromSregMem word p md d s) := by
  unfold moveFromSregMem
  split
  · exact moves_refused s _
  · exact (storeOperand_part ..).finish fun _ _ ht => ht.complete_moves

theorem storeReg_moves (m : Size) (word : Half) (r : RegNo) (md : Bool) (d : RegNo) (s : State) :
    Moves s (storeReg m word r md d s) :=
  (storeOperand_part ..).finish fun _ _ ht => ht.complete_moves

theorem movemLoadOp_moves (word : Half) (d : RegNo) (md : Bool) (r : RegNo) (s : State) :
    Moves s (movemLoadOp word d md r s) := by
  unfold movemLoadOp
  split
  · exact moves_refused s _
  · dsimp only
    split
    · exact (readOperand_part ..).finish fun _ _ ht => ((loadRegs_part ..).after ht).finish fun _ _ hu =>
        (hu.trans (.updateAddress ..)).complete_moves
    · exact (loadRegs_part ..).finish fun _ _ ht => (ht.trans (.updateAddress ..)).complete_moves

theorem movemStoreOp_moves (word : Half) (r : RegNo) (md : Bool) (d : RegNo) (s : State) :
    Moves s (movemStoreOp word r md d s) := by
  unfold movemStoreOp
  split
  · exact moves_refused s _
  · exact (unlessSuppressed_part (storeRegs_part ..)).finish fun _ _ ht =>
      (ht.trans (.updateAddress ..)).complete_moves

theorem branchShort_moves (c : Cond) (o : BitVec 8) (s : State) : Moves s (branchShort c o s) := by
  unfold branchShort
  split
  · exact moves_refused s _
  · exact complete_moves rfl rfl

theorem branchLong_moves (word : Half) (c : Cond) (s : State) : Moves s (branchLong word c s) := by
  unfold branchLong
  split
  · exact moves_refused s _
  · exact (loadOperand_part ..).finish fun _ _ ht => ht.complete_moves

/-- The jump family changes the mode in JMPU alone, and only if U is set (45_jump_branch.md R408). -/
theorem jumpWith_moves {k : JumpKind} (hk : k.toUser = true → k.link = none) (seq target : Word) {s t : State}
    (h : Between s t) (hd : s.delay = none) : Moves s (jumpWith k seq target t) := by
  intro u hu
  have hd' : (saveLink k seq t).delay = none := (saveLink_kept k seq t).delay.trans (h.delay.trans hd)
  obtain rfl := complete_jump_next hu hd'
  cases huser : k.toUser with
  | false =>
    refine .same (Eq.trans ?_ h.mode)
    simp only [jumped_mode, saveLink, huser, Bool.false_and, Bool.false_eq_true, if_false]
    split
    · exact writeSreg_mode ..
    · rfl
  | true =>
    have hlink : saveLink k seq t = if t.flags.u then { t with mode := .user } else t := by
      simp [saveLink, hk huser, huser]
    rw [hlink]
    split
    · next hset => exact .byFlag rfl (h.u ▸ hset)
    · exact .same h.mode

theorem transferRefusal_eq_none {s : State} (h : transferRefusal s = none) : s.delay = none := by
  unfold transferRefusal at h
  split at h
  · cases h
  · split at h
    · cases h
    · next hd => simpa using hd

theorem jumpReg_moves {k : JumpKind} (hk : k.toUser = true → k.link = none) (r : RegNo) (s : State) :
    Moves s (jumpReg k r s) := by
  unfold jumpReg
  split
  · exact moves_refused s _
  · next hno => exact jumpWith_moves hk _ _ (.refl s) (transferRefusal_eq_none hno)

theorem jumpMem_moves {k : JumpKind} (hk : k.toUser = true → k.link = none) (word : Half) (md : Bool) (r : RegNo)
    (s : State) : Moves s (jumpMem k word md r s) := by
  unfold jumpMem
  split
  · exact moves_refused s _
  · next hd => exact (loadOperand_part ..).finish fun _ _ ht => jumpWith_moves hk _ _ ht (by simpa using hd)

/-- BREAK is a trap (45_jump_branch.md R415). -/
theorem execBreakN_traps (n : BitVec 4) (s : State) : Traps (execBreakN n s) := by
  unfold execBreakN
  split
  · exact traps_refused _
  · next hno =>
    have hd := transferRefusal_eq_none hno
    intro t ht
    obtain rfl := complete_jump_next ht hd
    exact ⟨rfl, rfl, rfl, hd, rfl⟩

/-- A word that hands over an address keeps the mode. -/
theorem completePrefix_moves (seq addr : Word) {s t : State} (h : Between s t) : Moves s (completePrefix seq addr t) := by
  intro u hu
  obtain rfl := Host.Outcome.next.inj hu
  exact .same h.mode

theorem indexPrefix_moves (shift : Nat) (k b : RegNo) (s : State) : Moves s (indexPrefix shift k b s) := by
  unfold indexPrefix
  split
  · exact moves_refused s _
  · exact completePrefix_moves _ _ (.refl s)

theorem bytePrefix_moves (b : RegNo) (o : BitVec 8) (s : State) : Moves s (bytePrefix b o s) := by
  unfold bytePrefix
  split
  · exact moves_refused s _
  · split
    · exact moves_refused s _
    · exact completePrefix_moves _ _ (.refl s)

theorem offsetPrefix_moves (m : Size) (word : Half) (b : RegNo) (md : Bool) (r : RegNo) (s : State) :
    Moves s (offsetPrefix m word b md r s) := by
  unfold offsetPrefix
  split
  · exact moves_refused s _
  · exact (prefixOperand_part ..).finish fun _ _ ht => completePrefix_moves _ _ ht

theorem pointerPrefix_moves (word : Half) (md : Bool) (r : RegNo) (s : State) : Moves s (pointerPrefix word md r s) := by
  unfold pointerPrefix
  split
  · exact moves_refused s _
  · exact (prefixOperand_part ..).finish fun _ _ ht => completePrefix_moves _ _ ht

theorem saveStatus_moves (word : Half) (md : Bool) (d : RegNo) (s : State) : Moves s (Machine.saveStatus word md d s) := by
  unfold Machine.saveStatus
  split
  · exact moves_refused s _
  · exact (storeRecord_part ..).finish fun _ _ ht => (ht.trans (.updateAddress ..)).complete_moves

theorem restartFetch_mode {r : StatusRecord} {s t : State} (h : restartFetch r s = .next t) : t.mode = s.mode := by
  unfold restartFetch at h
  dsimp only at h
  split at h
  · cases h
  split at h
  · cases h
  split at h
  · cases h
  obtain rfl := Host.Outcome.next.inj h
  rfl

theorem restartData_mode {m : MemoryForm} {r : StatusRecord} {s t : State} (h : restartData m r s = .next t) :
    t.mode = s.mode := by
  unfold restartData at h
  dsimp only at h
  split at h
  · cases h
  split at h
  · cases h
  obtain rfl := Host.Outcome.next.inj h
  rfl

theorem restart_mode {form : Option MemoryForm} {r : StatusRecord} {s t : State} (h : restart form r s = .next t) :
    t.mode = s.mode := by
  unfold restart at h
  split at h
  · cases h
  split at h
  · split at h
    · cases h
    · exact restartData_mode h
  · exact restartFetch_mode h

/-- RBF goes to user mode if U was set (45_jump_branch.md R431). -/
theorem restart_restoreMode_moves (form : Option MemoryForm) (r : StatusRecord) {s t : State} (h : Between s t) :
    Moves s (restart form r (restoreMode r t)) := by
  intro u hu
  have hmode := restart_mode hu
  rw [restoreMode_mode] at hmode
  split at hmode
  · next hset => exact .byFlag hmode (h.u ▸ hset)
  · exact .same (hmode.trans h.mode)

theorem execRbf_moves (md : Bool) (r : RegNo) (s : State) : Moves s (execRbf md r s) := by
  unfold execRbf
  split
  · exact moves_refused s _
  · split
    · exact moves_refused s _
    · exact (loadRecord_part ..).finish fun rec _ ht => restart_restoreMode_moves _ rec (ht.trans (.updateAddress ..))

theorem flagOp_moves (g : Flags → Flags) (s : State) : Moves s (flagOp g s) := by
  unfold flagOp
  split
  · exact moves_refused s _
  · exact complete_moves rfl rfl

theorem execNop_moves (s : State) : Moves s (execNop s) := by
  unfold execNop
  split
  · exact moves_refused s _
  · exact complete_moves rfl rfl

/-! ## Every word and every step -/

/-- Every word changes the mode in one of the ways of `ModeMove`, by the family it belongs to. -/
theorem exec_moves (i : Instr) (s : State) : Moves s (exec i s) := by
  cases i with
  | reserved _ | unlisted _ | tableNote => exact moves_refused s _
  | nop => exact execNop_moves s
  | setf _ | ax | ei | clearf _ | di => exact flagOp_moves _ s
  | bcc c o => exact branchShort_moves c o s
  | bcc16 c => exact branchLong_moves _ c s
  | breakN n => exact (execBreakN_traps n s).moves s
  | jumpReg r | jircReg r | jsrcReg r | jbrcReg r | jirReg r | jsrReg r => exact jumpReg_moves (fun h => by cases h) r s
  | jump md r | jirc md r | jsrc md r | jbrc md r | jir md r | jsr md r => exact jumpMem_moves (fun h => by cases h) _ md r s
  | jmpu md r => exact jumpMem_moves (fun _ => rfl) _ md r s
  | rbf md r => exact execRbf_moves md r s
  | sbfs md d => exact saveStatus_moves _ md d s
  | bdapByte b o => exact bytePrefix_moves b o s
  | biapB k b | biapW k b | biapD k b => exact indexPrefix_moves _ k b s
  | bdapB b md r | bdapW b md r | bdapD b md r => exact offsetPrefix_moves _ _ b md r s
  | dip md r => exact pointerPrefix_moves _ md r s
  | movemLoad d md r => exact movemLoadOp_moves _ d md r s
  | movemStore r md d => exact movemStoreOp_moves _ r md d s
  | moveBStore r md d | moveWStore r md d | moveDStore r md d => exact storeReg_moves _ _ r md d s
  | pushReg r => exact storeReg_moves _ _ r true 14#4 s
  | moveToSpecial p r => exact moveToSregReg_moves p r s
  | moveToSpecialMem p md r => exact moveToSregMem_moves _ p md r s
  | popSpecial p => exact moveToSregMem_moves _ p true 14#4 s
  | moveFromSpecial p d => exact moveFromSregReg_moves p d s
  | clearBReg d => exact moveFromSregReg_moves .p0 d s
  | clearWReg d => exact moveFromSregReg_moves .p4 d s
  | clearDReg d => exact moveFromSregReg_moves .p8 d s
  | ret => exact moveFromSregReg_moves .srp 15#4 s
  | retb => exact moveFromSregReg_moves .brp 15#4 s
  | reti => exact moveFromSregReg_moves .irp 15#4 s
  | moveFromSpecialMem p md d => exact moveFromSregMem_moves _ p md d s
  | clearBMem md d => exact moveFromSregMem_moves _ .p0 md d s
  | clearWMem md d => exact moveFromSregMem_moves _ .p4 md d s
  | clearDMem md d => exact moveFromSregMem_moves _ .p8 md d s
  | pushSpecial p => exact moveFromSregMem_moves _ p true 14#4 s
  | mulsB d r | mulsW d r | mulsD d r | muluB d r | muluW d r | muluD d r => exact mulReg_moves _ _ d r s
  | cmpq d _ | btstq d _ => exact aluCore_moves (formCompare .dword) _ d _ s
  | addq d _ | subq d _ | andq d _ | orq d _ | moveq d _ | asrq d _ | lslq d _ | lsrq d _
  | scc _ d | swap _ d | notReg d => exact aluCore_moves _ _ d _ s
  | addBReg d r | addWReg d r | addDReg d r | adduBReg d r | adduWReg d r | addsBReg d r | addsWReg d r | subBReg d r
  | subWReg d r | subDReg d r | subuBReg d r | subuWReg d r | subsBReg d r | subsWReg d r
  | negBReg d r | negWReg d r | negDReg d r | andBReg d r | andWReg d r | andDReg d r | orBReg d r
  | orWReg d r | orDReg d r | xor d r | boundBReg d r | boundWReg d r | boundDReg d r | abs d r | dstep d r | mstep d r
  | asrBReg d r | asrWReg d r | asrDReg d r | lslBReg d r | lslWReg d r | lslDReg d r | lsrBReg d r | lsrWReg d r
  | lsrDReg d r | lz d r | movuBReg d r | movuWReg d r | moveBReg d r | moveWReg d r | moveDReg d r
  | movsBReg d r | movsWReg d r => exact aluReg_moves _ _ d r s
  | addiB k d | addiW k d | addiD k d => exact aluReg_moves _ _ d k s
  | cmpBReg d r => exact aluReg_moves (formCompare .byte) _ d r s
  | cmpWReg d r => exact aluReg_moves (formCompare .word) _ d r s
  | cmpDReg d r | btst d r => exact aluReg_moves (formCompare .dword) _ d r s
  | testBReg r => exact aluReg_moves (formTest .byte) _ r r s
  | testWReg r => exact aluReg_moves (formTest .word) _ r r s
  | testDReg r => exact aluReg_moves (formTest .dword) _ r r s
  | addBMem d md r | addWMem d md r | addDMem d md r | adduBMem d md r | adduWMem d md r | addsBMem d md r
  | addsWMem d md r | subBMem d md r | subWMem d md r | subDMem d md r | subuBMem d md r | subuWMem d md r
  | subsBMem d md r | subsWMem d md r | cmpBMem d md r | cmpWMem d md r | cmpDMem d md r | cmpuBMem d md r
  | cmpuWMem d md r | cmpsBMem d md r | cmpsWMem d md r | andBMem d md r | andWMem d md r | andDMem d md r
  | orBMem d md r | orWMem d md r | orDMem d md r | boundBMem d md r | boundWMem d md r | boundDMem d md r
  | movuBMem d md r | movuWMem d md r | moveBMem d md r | moveWMem d md r | moveDMem d md r | movsBMem d md r
  | movsWMem d md r => exact aluMem_moves _ _ _ d md r s
  | testBMem md r => exact aluMem_moves (formTest .byte) _ _ 0#4 md r s
  | testWMem md r => exact aluMem_moves (formTest .word) _ _ 0#4 md r s
  | testDMem md r => exact aluMem_moves (formTest .dword) _ _ 0#4 md r s
  | popReg d => exact aluMem_moves _ _ _ d true 14#4 s

theorem fetchAndExec_moves (s : State) : Moves s (fetchAndExec s) :=
  (fetchInstr_part s).finish fun w t ht => (exec_moves (decodeWord w) t).after ht

/-- Every step changes the mode in one of the ways of `ModeMove`. -/
theorem step_moves (s : State) : Moves s (step s) := by
  unfold step
  split
  · unfold runRestart
    split
    · exact exec_moves _ s
    · exact fetchAndExec_moves s
  · unfold checkAndRun
    split
    · exact (takeException_traps _ _).moves s
    · exact (fetchAndExec_moves _).after (.popIrq s)

/-- Settles O10: by how a step can change the mode, supervisor mode is entered by a trap, and user mode by JMPU or RBF with U
set or after the slot of RETI or RETB. -/
theorem modeChanges : Obligations.ModeChanges := by
  unfold Obligations.ModeChanges
  refine ⟨fun s t hs ht h => ?_, fun s t hs ht h => ?_⟩
  · cases step_moves s t h with
    | same hm => exact nomatch (ht.symm.trans hm).trans hs
    | trap htrap => exact ⟨htrap.f, htrap.noPrefix, htrap.noDelay, htrap.noResume⟩
    | byFlag hm _ => exact nomatch ht.symm.trans hm
    | slotReturn hm _ _ _ => exact nomatch ht.symm.trans hm
  · cases step_moves s t h with
    | same hm => exact nomatch (ht.symm.trans hm).trans hs
    | trap htrap => exact nomatch ht.symm.trans htrap.mode
    | byFlag _ hu => exact .inl hu
    | slotReturn _ hd hret hu => exact .inr ⟨_, hd, hret, hu⟩

end Sys2Proof.Proofs
end

section
/-! O5, O11, O12 and O13: the word that a step runs, and the events that it takes instead. First what the event check and
the fetch answer, then what taking an exception leaves once its vector has been read. -/

namespace Sys2Proof.Proofs

-- Declarations are checked one after another: many at once need more threads than the memory limit of the check allows.
set_option Elab.async false

open Sys2Proof.Machine Sys2Proof.Laws

/-! ## The event check (60_exceptions.md R453) -/

/-- The event check uses the first answer of the oracle. -/
theorem popIrq_snd (s : State) : (popIrq s).2 = { s with irqs := s.irqs.tail } := by
  obtain ⟨irqs, hirqs⟩ : ∃ irqs, s.irqs = irqs := ⟨_, rfl⟩
  cases irqs with
  | nil =>
    simp only [popIrq, hirqs, List.tail_nil]
    rw [← hirqs]
  | cons a rest => simp only [popIrq, hirqs, List.tail_cons]

theorem popIrq_cons {s : State} {a : IrqAnswer} {rest : List IrqAnswer} (h : s.irqs = a :: rest) :
    popIrq s = (a, { s with irqs := rest }) := by
  simp only [popIrq, h]

theorem step_of_noEvent {s : State} (hre : s.resume = none) (hev : pendingEvent (popIrq s).1 (popIrq s).2 = none) :
    step s = fetchAndExec { s with irqs := s.irqs.tail } := by
  rw [← popIrq_snd]
  simp only [step, hre, checkAndRun, hev]

theorem step_of_event {s : State} {e : Event} (hre : s.resume = none)
    (hev : pendingEvent (popIrq s).1 (popIrq s).2 = some e) : step s = takeException e { s with irqs := s.irqs.tail } := by
  rw [← popIrq_snd]
  simp only [step, hre, checkAndRun, hev]

/-- The restart of a data cycle: no event check and no fetch (60_exceptions.md R490). -/
theorem step_of_dataRestart {s : State} {r : Restart} {c : RestartCycle} (hre : s.resume = some r)
    (hc : r.cycle = some c) : step s = exec (decodeWord c.instr) s := by
  simp only [step, hre, runRestart, hc]

/-- What the claims ask of a state does not depend on the answers of the interrupt oracle. -/
theorem plain_irqs {s : State} (h : Plain s) (irqs : List IrqAnswer) : Plain { s with irqs := irqs } :=
  ⟨h.mmuOff, h.testOff, h.noSingleStep, h.noWindows, h.noOutside⟩

/-! ## O5: the word that is run -/

/-- A halfword of memory is its two bytes, low byte first (20_memory.md R72). -/
theorem loadBytes_half_eq_append (m : List Host.Cell) (a : Word) :
    (loadBytes m a 2).setWidth 16 = memRead m (physIndex a 1) ++ memRead m (physIndex a 0) := by
  ext i hi
  rw [BitVec.getElem_append, BitVec.getElem_setWidth]
  split
  · next hlow =>
    have h32 : i < 32 := by omega
    simp [loadBytes, hlow, h32]
  · next hhigh =>
    have h32 : i < 32 := by omega
    have hbyte : i - 8 < 8 := by omega
    have hover : (memRead m (physIndex a 0)).getLsbD i = false := BitVec.getLsbD_of_ge _ _ (by omega)
    simp [loadBytes, hhigh, h32, hover, BitVec.getLsbD_eq_getElem, hbyte]

/-- Settles O5: no event is due, so the word is fetched, and it is the one that memory holds. -/
theorem stepRunsDecodedWord : Obligations.StepRunsDecodedWord := by
  unfold Obligations.StepRunsDecodedWord
  refine ⟨fun s i hre hev h hf hdec _ => ?_, fun s r c hre hc => ?_⟩
  · have hstale : staleFetch s s.pc = none := by simpa using hf.fresh 0 (by decide)
    obtain ⟨s₁, hread, hpre, hfetch⟩ := fetchHalf_plain (s := { s with irqs := s.irqs.tail })
      (fun single t => .stop (takeException (.busFault (fetchFault { s with irqs := s.irqs.tail } single)) t))
      (plain_irqs h _) hf.even (readable_of_le hf.readable (by decide)) hstale hf.prefetched
    have hword : decodeWord ((loadBytes s.mem s.pc 2).setWidth 16) = i := by
      rw [loadBytes_half_eq_append]
      exact congrArg Prod.fst (Except.ok.inj hdec)
    refine ⟨s₁, hread, hpre, ?_⟩
    rw [step_of_noEvent hre hev]
    show Act.finish (fetchHalf _ s.pc _) _ = _
    rw [hfetch, Act.finish, hword]
  · exact step_of_dataRestart hre hc

/-! ## Taking an exception whose vector is read (60_exceptions.md R459, R466) -/

@[simp] theorem vectorAt_acknowledge (e : Event) (s : State) (v : Nat) : vectorAt (acknowledge e s) v = vectorAt s v := by
  cases e <;> rfl

/-- Once its vector read is done at an even address, the exception starts the handler there. -/
theorem takeException_of_cycle {e : Event} {s s' : State} {target pa : Word}
    (hc : busCycle none (vectorAt s (eventVector e).toNat) 4 (acknowledge e s) = .ok target pa s')
    (ht : target.getLsbD 0 = false) : takeException e s = .next (handlerAt target s') := by
  simp only [takeException, takeEvent, vectorAddress_eq_vectorAt, vectorAt_acknowledge, hc, enterHandler, ht,
    Bool.false_eq_true, if_false, handlerAt]

theorem acknowledge_plain {s : State} (h : Plain s) (e : Event) : Plain (acknowledge e s) := by
  cases e <;> exact ⟨h.mmuOff, h.testOff, h.noSingleStep, h.noWindows, h.noOutside⟩

theorem acknowledge_readable {s : State} {a : Word} {n : Nat} (h : Readable s a n) (e : Event) :
    Readable (acknowledge e s) a n := by
  cases e <;> exact h

@[simp] theorem acknowledge_mem (e : Event) (s : State) : (acknowledge e s).mem = s.mem := by
  cases e <;> rfl

/-- An exception with nothing in the way of its vector read. -/
theorem takeException_plain {e : Event} {s : State} {v : Nat} (hv : (eventVector e).toNat = v) (h : Plain s)
    (hr : Readable s (vectorAt s v) 4) (ht : (loadBytes s.mem (vectorAt s v) 4).getLsbD 0 = false) :
    takeException e s = .next (handlerAt (loadBytes s.mem (vectorAt s v) 4)
      (noteBreakpoint (vectorAt s v) (acknowledge e s))) := by
  subst hv
  refine takeException_of_cycle (pa := vectorAt s (eventVector e).toNat) ?_ ht
  rw [busCycle_read_plain (acknowledge_plain h e) (acknowledge_readable hr e), acknowledge_mem]

/-- The comparison of the vector's address with BAR may latch a hit (60_exceptions.md R464). -/
theorem mayHit_handlerAt (target a : Word) {s t : State} (hb : t.flags.b = s.flags.b) :
    MayHit s (handlerAt target t) (handlerAt target (noteBreakpoint a t)) := by
  obtain ⟨p, hp, hclear⟩ := noteBreakpoint_form a t
  rw [hp]
  exact ⟨rfl, fun h => hclear (hb.trans h)⟩

/-! ## O11 to O13: events taken -/

/-- A step that takes an event acknowledges it and starts the handler that its vector names. -/
theorem step_event_taken {s : State} {e : Event} {v : Nat} (hre : s.resume = none)
    (hev : pendingEvent (popIrq s).1 (popIrq s).2 = some e) (hv : (eventVector e).toNat = v) (h : Plain s)
    (hr : Readable s (vectorAt s v) 4) (ht : (loadBytes s.mem (vectorAt s v) 4).getLsbD 0 = false) :
    ∃ t, step s = .next t ∧ MayHit s (handlerAt (loadBytes s.mem (vectorAt s v) 4)
      (acknowledge e { s with irqs := s.irqs.tail })) t :=
  ⟨_, (step_of_event hre hev).trans (takeException_plain (s := { s with irqs := s.irqs.tail }) hv (plain_irqs h _) hr ht),
    mayHit_handlerAt _ _ (acknowledge_taken e _).b⟩

/-- Settles O11. -/
theorem interruptTaken : Obligations.InterruptTaken := by
  unfold Obligations.InterruptTaken
  intro s a rest v hre hin hhit hirqs hnmi hirq hi h hr ht
  have hev : pendingEvent (popIrq s).1 (popIrq s).2 = some (.interrupt v) := by
    simp [popIrq_cons hirqs, pendingEvent, hin, hhit, hnmi, hirq, hi]
  have htaken := step_event_taken hre hev rfl h hr ht
  rw [hirqs] at htaken
  exact htaken

/-- Settles O12. -/
theorem nmiTaken : Obligations.NmiTaken := by
  unfold Obligations.NmiTaken
  intro s a rest hre hin hhit hirqs hnmi hm h hr ht
  have hev : pendingEvent (popIrq s).1 (popIrq s).2 = some .nmi := by
    simp [popIrq_cons hirqs, pendingEvent, hin, hhit, hnmi, hm]
  have htaken := step_event_taken hre hev rfl h hr ht
  rw [hirqs] at htaken
  exact htaken

/-- Settles O13. -/
theorem breakpointTaken : Obligations.BreakpointTaken := by
  unfold Obligations.BreakpointTaken
  intro s hre hin hhit h hr ht
  have hev : pendingEvent (popIrq s).1 (popIrq s).2 = some .hwBreak := by
    simp [pendingEvent, hin, hhit]
  exact step_event_taken hre hev rfl h hr ht

end Sys2Proof.Proofs
end

section
/-! O15, O16, O17 and O18: bus faults. The record that a fault in the first cycle leaves, then cycles that fault, then the
fetch, the store and the load of the claims, and the load that RBF restarts. -/

namespace Sys2Proof.Proofs

-- Declarations are checked one after another: many at once need more threads than the memory limit of the check allows.
set_option Elab.async false

open Sys2Proof.Machine Sys2Proof.Laws

/-! ## The record (60_exceptions.md R481 to R487) -/

/-- A bit pattern with bits 5 and 0 clear as a number. -/
theorem append_nine_eq_ofNat : ∀ f u x d r l p : Bool,
    (0#7 ++ BitVec.ofBool f ++ BitVec.ofBool u ++ BitVec.ofBool x ++ BitVec.ofBool false ++ BitVec.ofBool d ++
      BitVec.ofBool r ++ BitVec.ofBool l ++ BitVec.ofBool p ++ BitVec.ofBool false : Half) =
      BitVec.ofNat 16 (256 * f.toNat + 128 * u.toNat + 64 * x.toNat + 16 * d.toNat + 8 * r.toNat + 4 * l.toNat +
        2 * p.toNat) := by
  decide

/-- The bits of that number. -/
theorem getLsbD_of_nine : ∀ f u x d r l p : Bool,
    let v := BitVec.ofNat 16 (256 * f.toNat + 128 * u.toNat + 64 * x.toNat + 16 * d.toNat + 8 * r.toNat + 4 * l.toNat +
        2 * p.toNat)
    v.getLsbD 1 = p ∧ v.getLsbD 2 = l ∧ v.getLsbD 3 = r ∧ v.getLsbD 4 = d ∧ v.getLsbD 5 = false ∧ v.getLsbD 6 = x ∧
      v.getLsbD 7 = u := by
  decide

/-- The execution state field of a fault in a first cycle that is no vector read. -/
theorem recordState_eq_stateField {b : BusFault} (hk : b.kind ≠ .vector) (hs : b.second = false) (s : State) :
    recordState b s = stateField (b.kind == .read || b.kind == .write) s := by
  have hvec : (b.kind == .vector) = false := by simpa using hk
  have hin : (b.kind != .vector) = true := by simpa using hk
  simp only [recordState, stateField, hvec, hin, hs, Bool.true_and, Bool.and_false]
  exact append_nine_eq_ofNat ..

theorem recordPc_eq_pcField {b : BusFault} (hk : b.kind ≠ .vector) (s : State) : recordPc b s = pcField b.next s :=
  if_neg hk

/-- The record of a fault in the first cycle of a read. -/
theorem statusRecord_read (c : Ctx) (a : Word) (single : Bool) (s : State) :
    statusRecord (dataFault c .read a false 0#32 single) s =
      { pc := pcField c.endPc s, state := stateField true s, instr := c.word, addr := a
        data := Config.freeWord s.freeCount } := by
  have hstate := recordState_eq_stateField (b := dataFault c .read a false 0#32 single) (by simp [dataFault]) rfl s
  have hpc := recordPc_eq_pcField (b := dataFault c .read a false 0#32 single) (by simp [dataFault]) s
  rw [statusRecord, hstate, hpc]
  rfl

/-- The record of a fault in the first cycle of a write. -/
theorem statusRecord_write (c : Ctx) (a v : Word) (single : Bool) (s : State) :
    statusRecord (dataFault c .write a false v single) s =
      { pc := pcField c.endPc s, state := stateField true s, instr := c.word, addr := a, data := v } := by
  have hstate := recordState_eq_stateField (b := dataFault c .write a false v single) (by simp [dataFault]) rfl s
  have hpc := recordPc_eq_pcField (b := dataFault c .write a false v single) (by simp [dataFault]) s
  rw [statusRecord, hstate, hpc]
  rfl

/-- The record of a fault in the fetch of a word. -/
theorem statusRecord_fetch (t : State) (single : Bool) (s : State) :
    statusRecord (fetchFault t single) s =
      { pc := pcField (pcPlus2 t) s, state := stateField false s, instr := Config.freeHalf s.freeCount, addr := t.pc
        data := s.prefixAddr.getD (Config.freeWord s.freeCount) } := by
  have hstate := recordState_eq_stateField (b := fetchFault t single) (by simp [fetchFault]) rfl s
  have hpc := recordPc_eq_pcField (b := fetchFault t single) (by simp [fetchFault]) s
  rw [statusRecord, hstate, hpc]
  rfl

/-! ## The fault taken (60_exceptions.md R466) -/

/-- With B clear no address is compared with BAR (60_exceptions.md R464). -/
theorem noteBreakpoint_of_clear {s : State} (hb : s.flags.b = false) (a : Word) : noteBreakpoint a s = s := by
  simp [noteBreakpoint, hb]

/-- A bus fault taken: the record, and the handler. -/
def faulted (rec : StatusRecord) (target : Word) (s : State) : State :=
  handlerAt target { trapped s with hidden := rec, freeCount := s.freeCount + 1 }

/-- The handler starts at the vector that its cycle reads. -/
theorem takeException_busFault_of_cycle {b : BusFault} {s : State} {v : Nat} {target pa : Word}
    (hv : (eventVector (.busFault b)).toNat = v)
    (hc : busCycle none (vectorAt s v) 4 (acknowledge (.busFault b) s) = .ok target pa (acknowledge (.busFault b) s))
    (ht : target.getLsbD 0 = false) :
    takeException (.busFault b) s = .next (faulted (statusRecord b s) target s) := by
  subst hv
  exact takeException_of_cycle hc ht

/-- With the MMU off and B clear. -/
theorem takeException_busFault {b : BusFault} {s : State} {v : Nat} (hv : (eventVector (.busFault b)).toNat = v)
    (h : Plain s) (hb : s.flags.b = false) (hr : Readable s (vectorAt s v) 4)
    (ht : (loadBytes s.mem (vectorAt s v) 4).getLsbD 0 = false) :
    takeException (.busFault b) s = .next (faulted (statusRecord b s) (loadBytes s.mem (vectorAt s v) 4) s) := by
  refine takeException_busFault_of_cycle (pa := vectorAt s v) hv ?_ ht
  rw [busCycle_read_plain (acknowledge_plain h _) (acknowledge_readable hr _),
    noteBreakpoint_of_clear ((acknowledge_taken _ s).b.trans hb), acknowledge_mem]

/-! ## Cycles that fault (60_exceptions.md R468) -/

/-- The single-step unit signals in the coming cycle and not later; nothing else stands in the way of a cycle. -/
structure SingleStepped (s : State) : Prop where
  /-- R_MMU_ENABLE is 0. -/
  mmuOff : s.mmu.enable = false
  /-- R_TEST_MODE is 0. -/
  testOff : s.mmu.testMode = false
  /-- One signal. -/
  signal : s.steps = [true]
  /-- No address is an MMU register. -/
  noWindows : s.mmuMap = []
  /-- No other agent writes to memory. -/
  noOutside : s.outside = []
  /-- B is 0. -/
  noBreakpoint : s.flags.b = false

theorem busCycle_singleStepped {s : State} (h : SingleStepped s) (datum : Option Word) (a : Word) (n : Nat) :
    busCycle datum a n s = .fault true { s with steps := [] } := by
  have hpop : popOutside s = s := by simp [popOutside, h.noOutside]
  simp [busCycle, noteBreakpoint_of_clear h.noBreakpoint, hpop, popStep, h.signal, Machine.translate, h.mmuOff, h.testOff]

/-- After the signal nothing stands in the way of a cycle. -/
theorem SingleStepped.plain_after {s : State} (h : SingleStepped s) : Plain { s with steps := [] } :=
  ⟨h.mmuOff, h.testOff, rfl, h.noWindows, h.noOutside⟩

section
variable {c : Ctx} {a : Word} {n : Nat} {single : Bool} {s s' : State}

theorem raiseData_of_notLoaded {α : Type} (hc : c.pcLoaded = false) (b : BusFault) (s : State) :
    raiseData (α := α) c b s = .stop (takeException (.busFault b) s) := by
  simp [raiseData, hc]

/-- A read whose first cycle faults, split or not. -/
theorem dataRead_of_fault (hc : c.pcLoaded = false) (hf : ∀ k, busCycle none a k s = .fault single s') :
    dataRead c none a n s = .stop (takeException (.busFault (dataFault c .read a false 0#32 single)) s') := by
  have hcycle (k : Nat) : readCycle c a false 0#32 a k s =
      .stop (takeException (.busFault (dataFault c .read a false 0#32 single)) s') := by
    simp only [readCycle, hf k, raiseData_of_notLoaded hc]
  unfold dataRead
  split
  · simp only [hcycle, Act.andThen]
  · exact hcycle n

/-- A write whose first cycle faults, split or not; the record holds the whole datum (60_exceptions.md R487). -/
theorem dataWrite_of_fault (hc : c.pcLoaded = false) {v : Word} (hf : ∀ w k, busCycle (some w) a k s = .fault single s') :
    dataWrite c none a n v s =
      .stop (takeException (.busFault (dataFault c .write a false (lowBytes n v) single)) s') := by
  have hcycle (w : Word) (k : Nat) : writeCycle c a false (lowBytes n v) a k w s =
      .stop (takeException (.busFault (dataFault c .write a false (lowBytes n v) single)) s') := by
    simp only [writeCycle, hf w k, raiseData_of_notLoaded hc]
  unfold dataWrite
  dsimp only
  split
  · simp only [hcycle, Act.andThen]
  · exact hcycle _ n

end

/-! ## O17: the fetch -/

/-- The fetch of a word whose cycle the single-step unit stops. -/
theorem fetchInstr_singleStepped {s : State} (h : SingleStepped s) (he : s.pc.getLsbD 0 = false)
    (hp : s.prefetch = none) :
    fetchInstr s = .stop (takeException (.busFault (fetchFault s true)) { s with steps := [] }) := by
  simp only [fetchInstr, fetchHalf, he, Bool.false_eq_true, if_false, hp, fetchCycle, busCycle_singleStepped h]

/-- The word is not fetched: the bus fault is taken with a fetch record. -/
theorem fetchAndExec_singleStepped {s : State} (h : SingleStepped s) (hre : s.resume = none) (hp : s.prefetch = none)
    (he : s.pc.getLsbD 0 = false) (hr : Readable s (vectorAt s 0x20) 4)
    (ht : (loadBytes s.mem (vectorAt s 0x20) 4).getLsbD 0 = false) :
    fetchAndExec s = .next (faulted
      { pc := pcField (s.pc + 2#32) s, state := stateField false s, instr := Config.freeHalf s.freeCount, addr := s.pc
        data := s.prefixAddr.getD (Config.freeWord s.freeCount) }
      (loadBytes s.mem (vectorAt s 0x20) 4) { s with steps := [] }) := by
  have htaken := takeException_busFault (b := fetchFault s true) (v := 0x20) rfl h.plain_after h.noBreakpoint hr ht
  rw [fetchAndExec, fetchInstr_singleStepped h he hp, Act.finish, htaken, statusRecord_fetch, pcPlus2_of_noRestart hre]
  rfl

/-- Settles O17. -/
theorem fetchFaultRecord : Obligations.FetchFaultRecord := by
  unfold Obligations.FetchFaultRecord
  intro s hre hev hp he hmmu htest hsteps hmap hout hb hr ht
  rw [step_of_noEvent hre hev]
  exact fetchAndExec_singleStepped (s := { s with irqs := s.irqs.tail }) ⟨hmmu, htest, hsteps, hmap, hout, hb⟩ hre hp he hr ht

/-! ## O16: the store -/

theorem lowBytes_four (v : Word) : lowBytes 4 v = v := by
  rw [lowBytes, BitVec.ushiftRight_zero, BitVec.and_allOnes]

theorem exec_moveDStore_eq_storeReg (r : RegNo) (md : Bool) (d : RegNo) (s : State) :
    exec (.moveDStore r md d) s = storeReg .dword (encode (.moveDStore r md d)) r md d s := rfl

/-- Settles O16. -/
theorem writeFaultKeepsMemory : Obligations.WriteFaultKeepsMemory := by
  unfold Obligations.WriteFaultKeepsMemory
  intro s d r md hmmu htest hsteps hmap hout hre hform hassign hb hx hr ht
  have h : SingleStepped s := ⟨hmmu, htest, hsteps, hmap, hout, hb⟩
  have hcycle : restartCycle s = none := by simp [restartCycle, hre]
  have hwrite := dataWrite_of_fault (c := { word := encode (.moveDStore r md d), endPc := endAddress md d 4 s }) (n := 4)
    (a := operandAddress d s) (v := readReg r s) rfl fun w k => busCycle_singleStepped h (some w) _ k
  have htaken := takeException_busFault (b := dataFault { word := encode (.moveDStore r md d), endPc := endAddress md d 4 s }
    .write (operandAddress d s) false (readReg r s) true) (v := 0x20) rfl h.plain_after hb hr ht
  rw [lowBytes_four] at hwrite
  simp only [exec_moveDStore_eq_storeReg, storeReg, sizeBytes, storeOperand, operandRefusal_none hform hassign, hx, hcycle,
    Bool.false_eq_true, if_false, hwrite, Act.andThen, Act.finish]
  rw [htaken, statusRecord_write]
  rfl

/-! ## O15: the load -/

/-- MOVE.D from memory, not in line, whose first cycle faults. -/
theorem exec_moveDMem_of_fault {d r : RegNo} {md : Bool} {s s' : State} {single : Bool} (hre : s.resume = none)
    (hdelay : s.delay = none) (hd : d ≠ 15#4) (hin : isInline md r s = false)
    (hassign : md = true → r = 15#4 → s.prefixAddr = none) (hdiffers : s.prefixAddr.isSome = true → md = false → r = d)
    (hf : ∀ k, busCycle none (operandAddress r s) k s = .fault single s') :
    exec (.moveDMem d md r) s = takeException (.busFault (dataFault
      { word := encode (.moveDMem d md r), endPc := pcPlus2 s } .read (operandAddress r s) false 0#32 single)) s' := by
  have hcycle : restartCycle s = none := by simp [restartCycle, hre]
  have href := memoryRefusal_write_none (f := formMove .dword) rfl rfl hd hdiffers
  have hoperand : operandRefusal md r s = none := operandRefusal_none (by simp [hdelay]) hassign
  have hread := dataRead_of_fault (c := { word := encode (.moveDMem d md r), endPc := pcPlus2 s }) (n := 4) rfl hf
  have hsize : sizeBytes (formMove .dword).access = 4 := rfl
  simp only [exec_moveDMem_eq_aluMem, aluMem, href, hsize, endAddress_of_not_inline hin, loadOperand, hoperand, hcycle,
    readOperand, hin, Bool.false_eq_true, if_false, hread, Act.andThen, Act.finish]

/-- A read cycle at a linear-mapped address with nothing in its way (20_memory.md R94, R96). -/
theorem busCycle_read_linear {s : State} {a : Word} {n : Nat} (he : s.mmu.enable = true) (hl : Linear s a)
    (hsteps : s.steps = []) (hmap : s.mmuMap = []) (hout : s.outside = []) (hb : s.flags.b = false)
    (hr : Readable s (linearPhysical s a) n) :
    busCycle none a n s = .ok (loadBytes s.mem (linearPhysical s a) n) (linearPhysical s a) s := by
  have hpop : popOutside s = s := by simp [popOutside, hout]
  simp [busCycle, noteBreakpoint_of_clear hb, hpop, popStep, hsteps, translate_linear he hl, physRead, exactWindow,
    touchesWindow, hmap, accessRefusal_readable hr]

/-- A cycle in user mode whose address no TLB entry hits (20_memory.md R94, R95, R99; log 29). -/
theorem busCycle_user_miss {s : State} {a : Word} (he : s.mmu.enable = true) (htest : s.mmu.testMode = false)
    (hsteps : s.steps = []) (hout : s.outside = []) (hb : s.flags.b = false) (hu : s.mode = .user)
    (hno : ∀ k, ¬ TlbHit s a k) (n : Nat) : busCycle none a n s = .fault false (missed a false s) := by
  have hpop : popOutside s = s := by simp [popOutside, hout]
  refine busCycle_of_translate_fault n hsteps ?_
  rw [noteBreakpoint_of_clear hb, hpop]
  exact translate_miss he (fun hl => by simp [hl.1] at hu) htest hno false

/-- Settles O15: the operand's cycle misses, and the vector's cycle, in supervisor mode, is linear-mapped. -/
theorem readMissTakesBusFault : Obligations.ReadMissTakesBusFault := by
  unfold Obligations.ReadMissTakesBusFault
  intro s d r md pa he htest hsteps hmap hout hre hdelay hu hb hd hin hpre hno hseg hpa hr ht
  subst hpa
  have hassign : md = true → r = 15#4 → s.prefixAddr = none := fun hmd hpc => by
    simpa [hmd, hpc] using hpre
  have hdiffers : s.prefixAddr.isSome = true → md = false → r = d := fun ha hmd => by
    simpa [hmd] using hpre ha
  rw [exec_moveDMem_of_fault hre hdelay hd hin hassign hdiffers
    (busCycle_user_miss he htest hsteps hout hb hu hno)]
  have hcycle (b : BusFault) : busCycle none (vectorAt s 0x2E) 4
      (acknowledge (.busFault b) (missed (operandAddress r s) false s)) =
      .ok (loadBytes s.mem (linearPhysical s (vectorAt s 0x2E)) 4) (linearPhysical s (vectorAt s 0x2E))
        (acknowledge (.busFault b) (missed (operandAddress r s) false s)) :=
    busCycle_read_linear he ⟨rfl, hseg⟩ hsteps hmap hout hb hr
  have hpc : pcField (pcPlus2 s) (missed (operandAddress r s) false s) = pcPlus2 s := by simp [pcField, missed, hdelay]
  rw [takeException_busFault_of_cycle (v := 0x2E) rfl (hcycle _) ht, statusRecord_read, hpc]
  rfl

end Sys2Proof.Proofs
end

section
/-! O18: the load that RBF restarts. First the load from its first cycle, restarted or not; then the word and the state that
the record restores; then the two runs compared. -/

namespace Sys2Proof.Proofs

-- Declarations are checked one after another: many at once need more threads than the memory limit of the check allows.
set_option Elab.async false

open Sys2Proof.Machine Sys2Proof.Laws

/-! ## The load from its first cycle -/

/-- A restart from the first cycle reads as an access that is not restarted (60_exceptions.md R490). -/
theorem dataRead_restart_first (c : Ctx) {restart : Option RestartCycle} (a : Word) (n : Nat) (s : State)
    (h : ∀ cycle, restart = some cycle → cycle.second = false) : dataRead c restart a n s = dataRead c none a n s := by
  rcases restart with _ | ⟨instr, addr, data, second⟩
  · rfl
  · obtain rfl := h _ rfl
    rfl

/-- With B clear a read leaves the state as it is. -/
theorem readOnly_eq {s t : State} (h : ReadOnly false s t) (hb : s.flags.b = false) : t = s := by
  obtain ⟨hform, hpre, hhit⟩ := h
  rw [hform, hpre rfl, hhit hb]

/-- MOVE.D from memory, not in line, from its first cycle on. -/
theorem exec_moveDMem_firstCycle {d r : RegNo} {md : Bool} {s : State} (h : Plain s) (hb : s.flags.b = false)
    (hdelay : s.delay = none) (hd : d ≠ 15#4) (hin : isInline md r s = false)
    (hassign : md = true → r = 15#4 → s.prefixAddr = none) (hdiffers : s.prefixAddr.isSome = true → md = false → r = d)
    (hfirst : ∀ cycle, restartCycle s = some cycle → cycle.second = false) (hr : Readable s (operandAddress r s) 4) :
    exec (.moveDMem d md r) s =
      .next (operandEnd .dword 4 d md r (movedOf .dword s.flags (memoryValue r 4 s)) s s) := by
  have href := memoryRefusal_write_none (f := formMove .dword) rfl rfl hd hdiffers
  have hoperand : operandRefusal md r s = none := operandRefusal_none (by simp [hdelay]) hassign
  have hslot : SlotOk (updateAddress md r 4 (operandAddress r s) s) :=
    slotOk_of_noDelay ((updateAddress_delay ..).trans hdelay)
  have hsize : sizeBytes (formMove .dword).access = 4 := rfl
  have hread (c : Ctx) : dataRead c (restartCycle s) (operandAddress r s) 4 s = .done (memoryValue r 4 s) s := by
    obtain ⟨s₁, hread, hdone⟩ := dataRead_plain c h hr
    rw [dataRead_restart_first c _ _ _ hfirst, hdone, readOnly_eq hread hb, memoryValue]
  simp only [exec_moveDMem_eq_aluMem, aluMem, href, hsize, loadOperand, hoperand, readOperand, hin, Bool.false_eq_true,
    if_false, hread, Act.andThen, Act.finish]
  rw [show memoryDest (formMove .dword) d md r s = d from rfl, writeBack_plain _ _ _ hslot fun _ => hd]
  exact congrArg (fun x => Host.Outcome.next (operandEnd .dword 4 d md r x s s))
    (calcMove_truncSize .dword s.flags (readReg d s) (memoryValue r 4 s))

/-! ## The word of the record -/

/-- MOVE.D [SP+],Rd is spelled POP Rd; every other form is spelled as it is (30_encoding.md R161). -/
theorem decodeWord_encode_moveDMem (d : RegNo) (md : Bool) (r : RegNo) :
    decodeWord (encode (.moveDMem d md r)) = if md = true ∧ r = 14#4 then .popReg d else .moveDMem d md r := by
  split
  · next h =>
    obtain ⟨rfl, rfl⟩ := h
    exact decodeWord_encode (.popReg d) rfl
  · next h => exact decodeWord_encode (.moveDMem d md r) (by simpa [WellFormed, or_iff_not_imp_left] using h)

/-- Either spelling has the memory form of the load. -/
theorem memoryForm_encode_moveDMem (d : RegNo) (md : Bool) (r : RegNo) :
    memoryForm (decodeWord (encode (.moveDMem d md r))) = some { md := md, reg := r, unit := 4, bytes := 4 } := by
  rw [decodeWord_encode_moveDMem]
  split
  · next h =>
    obtain ⟨rfl, rfl⟩ := h
    rfl
  · rfl

/-- Either spelling executes as the load. -/
theorem exec_encode_moveDMem (d : RegNo) (md : Bool) (r : RegNo) (s : State) :
    exec (decodeWord (encode (.moveDMem d md r))) s = exec (.moveDMem d md r) s := by
  rw [decodeWord_encode_moveDMem]
  split
  · next h =>
    obtain ⟨rfl, rfl⟩ := h
    rfl
  · rfl

/-! ## The state that RBF restores -/

/-- A state as RBF hands it to the restarted word, or as that word leaves it: with F set, the hidden registers and the count
of free values of the fault, the prefetch register empty, no store since a transfer of control. -/
def refaulted (rec : StatusRecord) (count : Nat) (s : State) : State :=
  { s with
    flags := { s.flags with f := true }, hidden := rec, freeCount := count, prefetch := none
    stores := { s.stores with fresh := [] } }

/-- The same state when the restart of a cycle is set up. -/
def restarting (rec : StatusRecord) (count : Nat) (r : Restart) (s : State) : State :=
  { refaulted rec count s with resume := some r, inhibit := true }

section
variable (rec : StatusRecord) (count : Nat) (re : Restart)

theorem writeReg_restarting (r : RegNo) (v : Word) (s : State) :
    writeReg r v (restarting rec count re s) = restarting rec count re (writeReg r v s) := by
  unfold writeReg
  split
  · rfl
  · split
    · show (if s.mode = .user then _ else _) = _
      split <;> rfl
    · rfl

theorem updateAddress_restarting (md : Bool) (r : RegNo) (n : Nat) (a : Word) (s : State) :
    updateAddress md r n a (restarting rec count re s) = restarting rec count re (updateAddress md r n a s) := by
  unfold updateAddress
  split
  · show (if s.prefixAddr.isSome then _ else _) = _
    split <;> exact writeReg_restarting ..
  · rfl

theorem withResult_restarting (d : RegNo) (v : Word) (s t : State) :
    withResult .dword d (movedOf .dword (restarting rec count re s).flags v) (restarting rec count re t) =
      restarting rec count re (withResult .dword d (movedOf .dword s.flags v) t) := by
  rw [withResult, writeReg_restarting]
  rfl

theorem finished_restarting (seq : Word) {s : State} (hdelay : s.delay = none) :
    finished seq false false (restarting rec count re s) = refaulted rec count (finished seq false false s) := by
  have hdelay' : (restarting rec count re s).delay = none := hdelay
  simp only [finished, hdelay, hdelay']
  rfl

/-- The restarted load ends as it would have ended, but for what the fault has changed. -/
theorem operandEnd_restarting {d r : RegNo} {md : Bool} {s : State} {v : Word} (hdelay : s.delay = none)
    (hend : endAddress md r 4 (restarting rec count re s) = endAddress md r 4 s)
    (haddr : operandAddress r (restarting rec count re s) = operandAddress r s) :
    operandEnd .dword 4 d md r (movedOf .dword (restarting rec count re s).flags v) (restarting rec count re s)
        (restarting rec count re s) =
      refaulted rec count (operandEnd .dword 4 d md r (movedOf .dword s.flags v) s s) := by
  have hdelay' : (withResult .dword d (movedOf .dword s.flags v) (updateAddress md r 4 (operandAddress r s) s)).delay =
      none := (writeReg_delay ..).trans ((updateAddress_delay ..).trans hdelay)
  rw [operandEnd, hend, haddr, updateAddress_restarting, withResult_restarting, finished_restarting _ _ _ _ hdelay']
  rfl

end

/-- The bits of a record's state field (60_exceptions.md R483). -/
theorem stateField_bits (data : Bool) (s : State) :
    (stateField data s).getLsbD 1 = s.prefixAddr.isSome ∧ (stateField data s).getLsbD 2 = s.delay.isSome ∧
      (stateField data s).getLsbD 3 = s.delay.any (·.ret) ∧ (stateField data s).getLsbD 4 = data ∧
      (stateField data s).getLsbD 5 = false ∧ (stateField data s).getLsbD 6 = s.flags.x ∧
      (stateField data s).getLsbD 7 = s.flags.u :=
  getLsbD_of_nine ..

/-- The record of a load outside a delay slot whose first cycle has faulted. -/
def loadRecordOf (d : RegNo) (md : Bool) (r : RegNo) (s : State) : StatusRecord :=
  { pc := s.pc + 2#32, state := stateField true s, instr := encode (.moveDMem d md r), addr := operandAddress r s
    data := Config.freeWord s.freeCount }

/-- The handler's state when it executes RBF, everything else restored: supervisor mode, U the mode before the fault. -/
def handlerDone (rec : StatusRecord) (count : Nat) (s : State) : State :=
  { s with
    mode := .supervisor
    flags := { s.flags with u := decide (s.mode = .user), f := true, x := false }
    prefixAddr := none, hidden := rec, freeCount := count }

/-- The restart of the load's first cycle. -/
def loadRestart (rec : StatusRecord) (s : State) : Restart :=
  { next := s.pc + 2#32, cycle := some { instr := rec.instr, addr := rec.addr, data := rec.data, second := false } }

section
variable {md : Bool} {r : RegNo} {s : State} {rec : StatusRecord} (hre : s.resume = none) (hdelay : s.delay = none)
  (hstate : rec.state = stateField true s) (haddr : rec.addr = operandAddress r s)
include hre hdelay hstate haddr

/-- RBF restores the mode, the flags X and U, and the pending address from the record (45_jump_branch.md R431). -/
theorem resumed_handlerDone (count : Nat) :
    resumed rec (s.pc + 2#32 - 2#32) (s.pc + 2#32) (loadRestart rec s).cycle
        (if rec.state.getLsbD 1 then some rec.addr else none) (handlerDone rec count s) =
      restarting rec count (loadRestart rec s) s := by
  obtain ⟨hprefix, hslot, -, -, -, hx, hu⟩ := stateField_bits true s
  rw [← hstate] at hprefix hslot hx hu
  have hmode : (if (handlerDone rec count s).flags.u then Mode.user else (handlerDone rec count s).mode) = s.mode := by
    cases hm : s.mode <;> simp [handlerDone, hm]
  have hpending : (if rec.state.getLsbD 1 then some rec.addr else none) = s.prefixAddr := by
    rw [hprefix, haddr]
    cases ha : s.prefixAddr with
    | none => rfl
    | some p => exact congrArg some (operandAddress_of_pending hre ha r)
  have hnoSlot : (if rec.state.getLsbD 2 then some { target := rec.pc, ret := rec.state.getLsbD 3 : Delay } else none) =
      s.delay := by
    rw [hslot, hdelay]
    rfl
  rw [resumed, hmode, hpending, hnoSlot, hx, hu, BitVec.add_sub_cancel]
  rfl

/-- RBF sets up the restart of the load (60_exceptions.md R490). -/
theorem restart_handlerDone (hrecPc : rec.pc = s.pc + 2#32) (hin : isInline md r s = false) (hpc : s.pc.getLsbD 0 = false)
    (count : Nat) :
    restart (some { md := md, reg := r, unit := 4, bytes := 4 }) rec (restoreMode rec (handlerDone rec count s)) =
      .next (restarting rec count (loadRestart rec s) s) := by
  obtain ⟨hprefix, hslot, hret, hkind, hsecond, -, -⟩ := stateField_bits true s
  rw [← hstate] at hprefix hslot hret hkind hsecond
  rw [hdelay] at hslot hret
  have hnotInline : ¬ (md && r == 15#4 && !rec.state.getLsbD 1 && !rec.state.getLsbD 2) = true := by
    rw [hprefix, hslot, Option.not_isSome, Option.isSome_none, Bool.not_false, Bool.and_true]
    exact Bool.eq_false_iff.1 hin
  have hnext : s.pc + 2#32 = rec.pc - BitVec.ofNat 32
      (if md && r == 15#4 && !rec.state.getLsbD 1 && !rec.state.getLsbD 2 then (if 4 = 1 then 2 else 4) else 0) := by
    rw [if_neg hnotInline, hrecPc]
    exact (BitVec.sub_zero _).symm
  have hdata := restart_data (r := rec) (m := { md := md, reg := r, unit := 4, bytes := 4 }) (next := s.pc + 2#32)
    (handlerDone rec count s) (fun h => nomatch hret.symm.trans h) (hrecPc ▸ even_add_two hpc) hkind
    (fun h => nomatch hsecond.symm.trans h) hnext
  rw [hdata, hsecond, ← resumed_handlerDone hre hdelay hstate haddr]
  rfl

end

/-! ## The two runs -/

theorem pcField_of_noDelay {s : State} (hdelay : s.delay = none) (next : Word) : pcField next s = next := by
  simp [pcField, hdelay]

theorem steps_nil_eq {s : State} (h : s.steps = []) : { s with steps := [] } = s := by rw [← h]

section
variable {d r : RegNo} {md : Bool} {s : State} (h : OperandReady md r 4 s) (hdelay : s.delay = none)
  (hin : isInline md r s = false) (hb : s.flags.b = false) (hd : d ≠ 15#4)
  (hdiffers : s.prefixAddr.isSome = true → md = false → r = d)
include h hdelay hin hb hd hdiffers

/-- The load with a single-step signal for its first cycle: the bus fault is taken, and its record is `loadRecordOf`. -/
theorem exec_moveDMem_singleStep (hr : Readable s (vectorAt s 0x20) 4)
    (ht : (loadBytes s.mem (vectorAt s 0x20) 4).getLsbD 0 = false) :
    exec (.moveDMem d md r) { s with steps := [true] } =
      .next (faulted (loadRecordOf d md r s) (loadBytes s.mem (vectorAt s 0x20) 4) s) := by
  have hstepped : SingleStepped { s with steps := [true] } :=
    ⟨h.plain.mmuOff, h.plain.testOff, rfl, h.plain.noWindows, h.plain.noOutside, hb⟩
  refine (exec_moveDMem_of_fault (s := { s with steps := [true] }) h.noRestart hdelay hd hin h.noAssign hdiffers
    fun k => busCycle_singleStepped hstepped none _ k).trans ?_
  show takeException (.busFault (dataFault { word := encode (.moveDMem d md r), endPc := pcPlus2 s } .read
    (operandAddress r s) false 0#32 true)) { s with steps := [] } = _
  rw [steps_nil_eq h.plain.noSingleStep, takeException_busFault (v := 0x20) rfl h.plain hb hr ht, statusRecord_read,
    pcPlus2_of_noRestart h.noRestart, pcField_of_noDelay hdelay, loadRecordOf]

/-- The step after RBF is the load, from its first cycle. -/
theorem step_restarting {rec : StatusRecord} (hinstr : rec.instr = encode (.moveDMem d md r))
    (hrecAddr : rec.addr = operandAddress r s) (count : Nat) :
    step (restarting rec count (loadRestart rec s) s) =
      .next (refaulted rec count (operandEnd .dword 4 d md r (movedOf .dword s.flags (memoryValue r 4 s)) s s)) := by
  have hmem : Readable s (operandAddress r s) 4 := by simpa [hin] using h.bytes
  have haddr : operandAddress r (restarting rec count (loadRestart rec s) s) = operandAddress r s := hrecAddr
  have hend : endAddress md r 4 (restarting rec count (loadRestart rec s) s) = endAddress md r 4 s := by
    rw [endAddress_of_not_inline hin, pcPlus2_of_noRestart h.noRestart]
    exact endAddress_of_not_inline (s := restarting rec count (loadRestart rec s) s) hin 4
  have hvalue : memoryValue r 4 (restarting rec count (loadRestart rec s) s) = memoryValue r 4 s := by
    rw [memoryValue, haddr]
    rfl
  have hplain : Plain (restarting rec count (loadRestart rec s) s) :=
    ⟨h.plain.mmuOff, h.plain.testOff, h.plain.noSingleStep, h.plain.noWindows, h.plain.noOutside⟩
  have hfirst : ∀ cycle, restartCycle (restarting rec count (loadRestart rec s) s) = some cycle → cycle.second = false :=
    fun cycle hc => by
      obtain rfl := Option.some.inj hc
      rfl
  refine (step_of_dataRestart (r := loadRestart rec s) rfl rfl).trans ?_
  show exec (decodeWord rec.instr) _ = _
  rw [hinstr, exec_encode_moveDMem, exec_moveDMem_firstCycle hplain hb hdelay hd hin h.noAssign hdiffers hfirst
    (haddr ▸ hmem), hvalue, operandEnd_restarting _ _ _ hdelay hend haddr]

end

/-- Settles O18: the load faults, RBF restarts it from its record, and the restarted run ends as the unfaulted one. -/
theorem restartTransparency : Obligations.RestartTransparency := by
  unfold Obligations.RestartTransparency
  intro s d r md h hdelay hin hb hd hpc hdiffers hr ht
  have hmem : Readable s (operandAddress r s) 4 := by simpa [hin] using h.bytes
  have hrestart : restart (memoryForm (decodeWord (loadRecordOf d md r s).instr)) (loadRecordOf d md r s)
      (restoreMode (loadRecordOf d md r s) (handlerDone (loadRecordOf d md r s) (s.freeCount + 1) s)) =
      .next (restarting (loadRecordOf d md r s) (s.freeCount + 1) (loadRestart (loadRecordOf d md r s) s) s) := by
    rw [show (loadRecordOf d md r s).instr = encode (.moveDMem d md r) from rfl, memoryForm_encode_moveDMem]
    exact restart_handlerDone h.noRestart hdelay rfl rfl rfl hin hpc _
  exact ⟨_, _, _, exec_moveDMem_singleStep h hdelay hin hb hd hdiffers hr ht,
    exec_moveDMem_firstCycle h.plain hb hdelay hd hin h.noAssign hdiffers
      (fun cycle hc => by simp [restartCycle, h.noRestart] at hc) hmem,
    hrestart, step_restarting h hdelay hin hb hd hdiffers rfl rfl _⟩

end Sys2Proof.Proofs
end

section
/-! O7 and O8: the state after reset. -/

namespace Sys2Proof.Proofs

-- Declarations are checked one after another: many at once need more threads than the memory limit of the check allows.
set_option Elab.async false

open Sys2Proof.Machine Sys2Proof.Laws

/-! ## O7: the state after reset is well formed -/

/-- The four addresses of Table 1-12 are even (70_reset_and_hazards.md R523, 10_state.md R32). -/
theorem resetPc_even (b : Config.BootMethod) : (Config.resetPc b).getLsbD 0 = false := by
  cases b <;> decide

/-- The default `SR_OFF_*` fill the sixteen bytes of a record, one field behind the other (60_exceptions.md R481; log 12). -/
theorem layoutOk_recordLayout : LayoutOk Config.recordLayout := by
  decide

/-- Reset leaves nothing pending, at an even address, with the hidden registers clear; memory and layout are the
parameters' own. -/
theorem stateOk_resetWith {p : Parameters} (hmem : memWf p.mem = true) (hlayout : LayoutOk p.layout) :
    StateOk (State.resetWith p) where
  memory := hmem
  pcEven := resetPc_even p.bootMethod
  resumeEven := nofun
  windowHeld := nofun
  reservedBits := show (0#16).extractLsb' 9 7 = 0#7 by decide
  layout := hlayout

/-- Settles O7: for any such parameters, of which the defaults are one case. -/
theorem resetStateOk : Obligations.ResetStateOk :=
  ⟨fun _ hmem hlayout => stateOk_resetWith hmem hlayout, stateOk_resetWith reset_memory_wf layoutOk_recordLayout⟩

/-! ## O8: what reset leaves where the spec says so -/

/-- CCR and DCCR read 0 when no flag is set (10_state.md R36). -/
theorem ccrOfFlags_zero : ccrOfFlags Flags.zero = 0#16 := by
  decide

/-- With no flag set and no base set, the special registers that reset gives a value read it (10_state.md R35, R36, R43, R65). -/
theorem readSreg_resetWith (p : Parameters) :
    readSreg .ccr (State.resetWith p) = 0#32 ∧ readSreg .dccr (State.resetWith p) = 0#32 ∧
      readSreg .ibr (State.resetWith p) = 0#32 ∧ readSreg .vr (State.resetWith p) = 10#32 := by
  have hccr : (ccrOfFlags Flags.zero).setWidth 32 = 0#32 := by rw [ccrOfFlags_zero]; rfl
  have hibr : (0#16 ++ 0#16 : Word) = 0#32 := by decide
  exact ⟨hccr, hccr, hibr, rfl⟩

/-- Settles O8: the four registers read through the model's own read; each other cell is the one that reset writes. -/
theorem resetValues : Obligations.ResetValues := by
  unfold Obligations.ResetValues
  refine ⟨fun p => ?_, rfl, rfl, rfl, rfl, rfl, rfl, rfl⟩
  obtain ⟨hccr, hdccr, hibr, hvr⟩ := readSreg_resetWith p
  exact ⟨rfl, hccr, hdccr, hibr, hvr, rfl, rfl, rfl, rfl, rfl, rfl, rfl, rfl, rfl, rfl, rfl, rfl, rfl⟩

end Sys2Proof.Proofs
end
